-- ==== Sys2Proof/Word.lean ====
section
/-! DEFINITION. The widths of 00_scope.md R7, one name each. They are constants of the hardware, not parameters. -/

namespace Sys2Proof

/-- A data byte: `BYTE_W = 8` bits (R7), the element of `BQ` (R11). -/
abbrev Byte := BitVec 8

/-- A word index: `WORD_W = 11` bits (R7); every value `0..2047` is the index of one word (R6). -/
abbrev Index := BitVec 11

/-- A data word group: `GROUP_BITS = 33` bits, 32 payload bits and one pad bit (R7, R52). -/
abbrev Group := BitVec 33

/-- A drop count: `DROP_W = 2` bits (R7, R16). -/
abbrev DropCount := BitVec 2

/-- A checksum: `CS_W = 9` bits, so arithmetic on it is modulo `CS_MOD = 512` (R7, R17). -/
abbrev Checksum := BitVec 9

/-- A command word: 16 bits (R45). -/
abbrev CmdWord := BitVec 16

/-- The `arg` field of a command word (R45), and the width of `rdata` and of an entry of `WQ` (R13, R50). -/
abbrev Word12 := BitVec 12

end Sys2Proof
end

