-- ==== Sys2Proof/Syntax.lean ====
section
/-! DEFINITION. The commands of `SPLC-1` (30_encoding.md R46): one constructor per row of opcode_table.json. -/

namespace Sys2Proof

/-- A command with its operands as R47 assembles them. Every operand is an unsigned immediate of the stated width. -/
inductive Instr where
  /-- `NOP` (R135). -/
  | nop
  /-- `CLR` (R136). -/
  | clr
  /-- `PUSHB imm8` (R130). -/
  | pushb (imm8 : Byte)
  /-- `PUSHW unk, idx` (R131). -/
  | pushw (unk : Bool) (idx : Index)
  /-- `POPB` (R132). -/
  | popb
  /-- `POPW` (R133). -/
  | popw
  /-- `ENC` (R95). -/
  | enc
  /-- `DEC` (R110). -/
  | dec
deriving DecidableEq, Repr

end Sys2Proof
end

