-- ==== Sys2Proof/WellFormed.lean ====
section
/-! DEFINITION. Well-formedness of commands and of assembler lines (30_encoding.md R47, R56, R57). -/

namespace Sys2Proof

/-- A command is well formed when its operands fit their fields (R47). The operand types of `Instr` are the fields'
widths and every value of a field is legal, so there is no check that could fail; the checks that can are those of an
assembler line, `AsmLine.wf`. -/
def Instr.wf : Instr → Bool
  | .nop => true
  | .clr => true
  | .pushb _ => true
  | .pushw _ _ => true
  | .popb => true
  | .popw => true
  | .enc => true
  | .dec => true

/-- One line of assembler (R56) or pseudo-instruction (R57), with operands as the numbers written. -/
inductive AsmLine where
  | nop
  | clr
  | pushb (imm8 : Nat)
  | pushw (idx : Nat)
  | popb
  | popw
  | enc
  | dec
  /-- `.word v`: the 16-bit value as it is. -/
  | word (v : Nat)
  /-- `PUSHWU` (with `idx = 0`) and `PUSHWU idx`. -/
  | pushwu (idx : Nat)
  /-- `PUSHBS b0, b1, ..., bk`. -/
  | pushbs (bytes : List Nat)
  /-- `PUSHWS i0, i1, ..., ik`. -/
  | pushws (indices : List Nat)
  /-- `POPBS n`. -/
  | popbs (n : Nat)
  /-- `POPWS n`. -/
  | popws (n : Nat)
deriving DecidableEq, Repr

/-- "An operand out of range is an assembly error, not a command" (R56). The list forms of R57 name at least one
element. -/
def AsmLine.wf : AsmLine → Bool
  | .nop => true
  | .clr => true
  | .pushb imm8 => decide (imm8 ≤ 255)
  | .pushw idx => decide (idx ≤ 2047)
  | .popb => true
  | .popw => true
  | .enc => true
  | .dec => true
  | .word v => decide (v < 65536)
  | .pushwu idx => decide (idx ≤ 2047)
  | .pushbs bytes => !bytes.isEmpty && bytes.all fun b => decide (b ≤ 255)
  | .pushws indices => !indices.isEmpty && indices.all fun i => decide (i ≤ 2047)
  | .popbs _ => true
  | .popws _ => true

end Sys2Proof
end

