-- ==== Sys2Proof/Decode.lean ====
section
/-! DEFINITION. The command decoder (30_encoding.md R45 to R49), total on all 65536 words and rejecting by name, and
after it the encoder. -/

namespace Sys2Proof

/-- Why a word is no command: the two cases of R49. -/
inductive IllegalCmd where
  /-- An opcode `0x8` to `0xF`. -/
  | reservedOpcode (op : BitVec 4)
  /-- A defined opcode with a non-zero must-be-zero bit. -/
  | mustBeZero (op : BitVec 4) (arg : Word12)
deriving DecidableEq, Repr

/-- What the decoder answers. -/
inductive Decoding where
  | legal (i : Instr)
  | illegal (why : IllegalCmd)
deriving DecidableEq, Repr

/-- `op = cmd[15:12]` (R45). -/
def opField (w : CmdWord) : BitVec 4 := w.extractLsb 15 12

/-- `arg = cmd[11:0]` (R45). -/
def argField (w : CmdWord) : Word12 := w.extractLsb 11 0

/-- A command without operand requires `arg = 0` (R47). -/
def withoutOperand (op : BitVec 4) (arg : Word12) (i : Instr) : Decoding :=
  if arg = 0#12 then .legal i else .illegal (.mustBeZero op arg)

/-- The decoding of R48. -/
def decode (w : CmdWord) : Decoding :=
  let op := opField w
  let arg := argField w
  if op = 0x0#4 then withoutOperand op arg .nop
  else if op = 0x1#4 then withoutOperand op arg .clr
  else if op = 0x2#4 then
    if arg.extractLsb 11 8 = 0#4 then .legal (.pushb (arg.extractLsb 7 0)) else .illegal (.mustBeZero op arg)
  else if op = 0x3#4 then .legal (.pushw (arg.getLsbD 11) (arg.extractLsb 10 0))
  else if op = 0x4#4 then withoutOperand op arg .popb
  else if op = 0x5#4 then withoutOperand op arg .popw
  else if op = 0x6#4 then withoutOperand op arg .enc
  else if op = 0x7#4 then withoutOperand op arg .dec
  else .illegal (.reservedOpcode op)

/-- The command of a legal word. -/
def Decoding.instr? : Decoding → Option Instr
  | .legal i => some i
  | .illegal _ => none

/-- The command word of `nbits` bits of `w`, the bits above them zero. Bit 0 of the table's numbering is bit 0 of the
command word (R45); the word is one 16-bit value and has no byte order (R44). -/
def tableWord (nbits w : Nat) : CmdWord := BitVec.ofNat 16 (w % 2 ^ nbits)

/-- The command the decoder reads from a table word; none where it refuses, or where `w` has bits above the 16 a
command word has. -/
def decodeTableWord (nbits w : Nat) : Option Instr :=
  if w % 2 ^ nbits < 65536 then (decode (tableWord nbits w)).instr? else none

/-- The word of a command, from the match values of R48 and the fields of R47. -/
def encode : Instr → CmdWord
  | .nop => 0x0000#16
  | .clr => 0x1000#16
  | .pushb imm8 => 0x2#4 ++ 0#4 ++ imm8
  | .pushw unk idx => 0x3#4 ++ BitVec.ofBool unk ++ idx
  | .popb => 0x4000#16
  | .popw => 0x5000#16
  | .enc => 0x6000#16
  | .dec => 0x7000#16

end Sys2Proof
end

