-- ==== Sys2Proof/Config.lean ====
section
/-! DEFINITION. What an implementation fixes: the one open parameter `GMAX` (00_scope.md R8, decision D3). -/

namespace Sys2Proof.Config

/-- How many groups beyond one a transaction may hold. OPEN in the spec (R8), so it has no body: nothing can prove a
value of it. DESIGN CHOICE, log entry 1. -/
opaque extraGroups : Nat

/-- `GMAX`, the largest number of 4-byte groups of one transaction, of the machine that `State.reset` describes.
R8 requires `GMAX >= 1`, which holds by this form. -/
def gmax : Nat := extraGroups + 1

end Sys2Proof.Config
end

