-- ==== Sys2Proof/Machine/State.lean ====
section
/-! DEFINITION. The state of the block (10_state.md R10 to R18), and beside it what the host's side of the port needs:
the inputs not yet served and the responses given. Plain data throughout. -/

namespace Sys2Proof.Machine

/-- An entry of `WQ`: 12 bits, `unk ∥ idx` (R13). -/
structure Entry where
  /-- Bit 11: the external Vocabulary Lookup found no index for the word at this position (R14). -/
  unk : Bool
  /-- Bits 10:0: the word's index. -/
  idx : Index
deriving DecidableEq, Repr

/-- The three error kinds of SPL (60_exceptions.md R146 to R148). `EncodingError` is not among them (R149). -/
inductive ErrorKind where
  | malformedInput
  | unknownWord
  | checksumMismatch
deriving DecidableEq, Repr

/-- The value of register `ERR` (R15): exactly `NONE` and the three kinds (93 W3). -/
inductive Err where
  | none
  | malformedInput
  | unknownWord
  | checksumMismatch
deriving DecidableEq, Repr

/-- A response code (30_encoding.md R50): exactly these five (93 W2). -/
inductive Rc where
  | ok
  | illegalCmd
  | queueFull
  | queueEmpty
  | opFailed
deriving DecidableEq, Repr

/-- The response `(rc, rdata)` that every command produces once (R50). -/
structure Response where
  rc : Rc
  rdata : Word12
deriving DecidableEq, Repr

/-- What the host may present to the block (70_reset_and_hazards.md R181): a command word, or reset (R170). Sampling
the status outputs is no step (R28). -/
inductive PortInput where
  | command (w : CmdWord)
  | reset
deriving DecidableEq, Repr

/-- The values that `ENC` and `DEC` copy to `DROP`, `CSF`, `CSC`, `EPOS` (42_encoder.md R97, 43_decoder.md R111). -/
structure ByProducts where
  drop : DropCount
  csf : Checksum
  csc : Checksum
  epos : Nat
deriving DecidableEq, Repr

/-- The machine: the two queues, the five result registers, and three fields that are the model's own (`gmax`,
`commands`, `responses`). -/
structure State where
  /-- The open parameter `GMAX` (00_scope.md R8). The model's own field, log entry 1: no step changes it. -/
  gmax : Nat
  /-- `BQ`, the byte queue, head first (R11). -/
  bq : List Byte
  /-- `WQ`, the word queue, head first (R12). -/
  wq : List Entry
  /-- `ERR` (R15). -/
  err : Err
  /-- `DROP` (R16). -/
  drop : DropCount
  /-- `CSF`, the checksum in the check-word (R17). -/
  csf : Checksum
  /-- `CSC`, the checksum computed over bytes (R17). -/
  csc : Checksum
  /-- `EPOS` (R18), a natural `< WCAP` as R8 allows. Log entry 6. -/
  epos : Nat
  /-- The host's inputs not yet served, the next one first (R20, R181). The model's own field, log entry 2. -/
  commands : List PortInput
  /-- The responses given so far, oldest first (R50, R181). The model's own field, log entry 3. -/
  responses : List Response
deriving DecidableEq, Repr

/-- Nothing stops the block: every word has a defined effect in every state (R49, R153), so there is no fault. -/
inductive Fault where
deriving DecidableEq, Repr

/-- The block's own refusals are responses (R151), not stops. -/
inductive Refusal where
  /-- An instruction of the table whose meaning is not modelled; raised only by an arm of `exec`; safe. No arm does. -/
  | notModelled (mnemonic : String)
deriving DecidableEq, Repr

/-- The reset state (R24) of a block with capacity parameter `g`, with nothing presented and nothing answered yet. -/
def State.resetOf (g : Nat) : State where
  gmax := g
  bq := []
  wq := []
  err := .none
  drop := 0#2
  csf := 0#9
  csc := 0#9
  epos := 0
  commands := []
  responses := []

/-- The machine right after reset (R24). `GMAX` is open (R8) and so has no number here; log entry 1. -/
def State.reset : State := State.resetOf Config.gmax

end Sys2Proof.Machine
end

