-- ==== Sys2Proof/Machine/Flags.lean ====
section
/-! DEFINITION. The numeric codes (10_state.md R15, 30_encoding.md R50) and the result registers as the block's only flags
(R23): what writes them and what they are cleared to. -/

namespace Sys2Proof.Machine

/-- The value of `ERR` that records an error kind (R15, R150). -/
def ErrorKind.toErr : ErrorKind → Err
  | .malformedInput => .malformedInput
  | .unknownWord => .unknownWord
  | .checksumMismatch => .checksumMismatch

/-- The 3-bit code of `ERR` (R15). -/
def Err.code : Err → BitVec 3
  | .none => 0#3
  | .malformedInput => 1#3
  | .unknownWord => 2#3
  | .checksumMismatch => 3#3

/-- The 3-bit response code (R50). -/
def Rc.code : Rc → BitVec 3
  | .ok => 0#3
  | .illegalCmd => 1#3
  | .queueFull => 2#3
  | .queueEmpty => 3#3
  | .opFailed => 4#3

/-- "by-products default to 0" (43_decoder.md R111): also what `ENC`, `DEC`, `CLR` and reset clear the registers to. -/
def ByProducts.zero : ByProducts where
  drop := 0#2
  csf := 0#9
  csc := 0#9
  epos := 0

/-- Write all five result registers. -/
def State.setResults (e : Err) (r : ByProducts) (s : State) : State :=
  { s with err := e, drop := r.drop, csf := r.csf, csc := r.csc, epos := r.epos }

/-- `ERR <- 0 ; DROP <- 0 ; CSF <- 0 ; CSC <- 0 ; EPOS <- 0`, with which `ENC` and `DEC` begin and `CLR` ends. -/
def State.clearResults (s : State) : State := s.setResults .none .zero

end Sys2Proof.Machine
end

