-- ==== Sys2Proof/Machine/Operands.lean ====
section
/-! DEFINITION. The operand forms of SPLC-1 (30_encoding.md R47): two immediates, the entry that `PUSHW` assembles, and
the two forms in which a popped element appears on `rdata` (R50). There is no register operand and no address (10_state.md
R22, 44_queue_and_control.md R130). -/

namespace Sys2Proof.Machine

/-- The entry `unk ∥ idx` that `PUSHW` pushes, both fields used as they are (R47). -/
def pushwEntry (unk : Bool) (idx : Index) : Entry := ⟨unk, idx⟩

/-- An entry with `unk = 0`: what `ENC` writes for an index (R13, R95). -/
def knownEntry (idx : Index) : Entry := ⟨false, idx⟩

/-- The 12 bits of an entry, `unk ∥ idx` (R13). -/
def Entry.bits (e : Entry) : Word12 := BitVec.ofBool e.unk ++ e.idx

/-- `rdata` of a successful `POPB`: `zext_12` of the byte (R50, R132). -/
def popbData (v : Byte) : Word12 := v.setWidth 12

/-- `rdata` of a successful `POPW`: the 12-bit entry (R50, R133). -/
def popwData (v : Entry) : Word12 := v.bits

end Sys2Proof.Machine
end

