-- ==== Sys2Proof/Machine/Ops.lean ====
section
/-! DEFINITION. The shared operations: queues (20_memory.md R30 to R33), capacities (00_scope.md R8), the response
(30_encoding.md R50), status outputs (10_state.md R28), reset, and taking an error (60_exceptions.md R150). -/

namespace Sys2Proof.Machine

/-- `BCAP = 4 * GMAX` (R8). -/
def State.bcap (s : State) : Nat := 4 * s.gmax

/-- `WCAP = 3 * GMAX + 1` (R8). -/
def State.wcap (s : State) : Nat := 3 * s.gmax + 1

/-- `BLEN = len(BQ)` (R21). -/
def State.blen (s : State) : Nat := s.bq.length

/-- `WLEN = len(WQ)` (R21). -/
def State.wlen (s : State) : Nat := s.wq.length

/-- The seven status outputs of R26. -/
structure Status where
  err : BitVec 3
  drop : DropCount
  csf : Checksum
  csc : Checksum
  epos : Nat
  blen : Nat
  wlen : Nat
deriving DecidableEq, Repr

/-- What the host samples between two commands (R28): projections of the state, without side effect. -/
def State.status (s : State) : Status where
  err := s.err.code
  drop := s.drop
  csf := s.csf
  csc := s.csc
  epos := s.epos
  blen := s.blen
  wlen := s.wlen

/-- `QPushTail(Q, e)` (00_scope.md section 6.3). -/
def qPushTail {α : Type} (q : List α) (e : α) : List α := q ++ [e]

/-- `QPopHead(Q)`: element 0 and the rest (00_scope.md section 6.3); none when its precondition `len(Q) >= 1` fails. -/
def qPopHead {α : Type} : List α → Option (α × List α)
  | [] => none
  | v :: rest => some (v, rest)

/-- `BQ <- q`. -/
def State.setBq (q : List Byte) (s : State) : State := { s with bq := q }

/-- `WQ <- q`. -/
def State.setWq (q : List Entry) (s : State) : State := { s with wq := q }

/-- `respond(rc, rdata)` (R50): an output of the step, kept in the host's record. -/
def State.respond (rc : Rc) (rdata : Word12) (s : State) : State :=
  { s with responses := s.responses ++ [⟨rc, rdata⟩] }

/-- A refusal (R151): the response alone, no state change, `rdata = 0`. -/
def State.refuse (rc : Rc) (s : State) : State := s.respond rc 0#12

/-- Both queues empty and all five registers 0: the effect that reset (R170) and `CLR` (R136) share. -/
def State.clearBlock (s : State) : State := ((s.setBq []).setWq []).clearResults

/-- Taking an error, the block's one exception entry (R150): `ERR` gets the kind, the other registers the by-products,
both queues are emptied, and the failing command itself answers `(OP_FAILED, 0)`. There is no vector, no mode and no
saved pc; nothing is entered, so there is no return from it (R154). -/
def State.raise (kind : ErrorKind) (r : ByProducts) (s : State) : State :=
  (((s.setBq []).setWq []).setResults kind.toErr r).respond .opFailed 0#12

end Sys2Proof.Machine
end

