-- ==== Sys2Proof/Machine/Control.lean ====
section
/-! DEFINITION. Control (44_queue_and_control.md): `NOP`, `CLR`, and the reset input (70_reset_and_hazards.md R170). -/

namespace Sys2Proof.Machine

/-- `NOP` (R135). -/
def execNop (s : State) : Host.Outcome State Fault Refusal := .next (s.respond .ok 0#12)

/-- `CLR` (R136). -/
def execClr (s : State) : Host.Outcome State Fault Refusal := .next (s.clearBlock.respond .ok 0#12)

/-- Reset (R170): a step like a command, with no response. -/
def execReset (s : State) : Host.Outcome State Fault Refusal := .next s.clearBlock

end Sys2Proof.Machine
end

