-- ==== Sys2Proof/Machine/BitPacker.lean ====
section
/-! DEFINITION. The bit-packer (40_bit_grouping.md): SPL's three string utilities, and the two functions the hardware
implements, `PACK4` and `UNPACK3`. -/

namespace Sys2Proof.Machine

/-- `TOBIN(v, N)` (R65): the `N`-bit vector equal to `v`, defined when `v < 2^N`. SPL's `EncodingError` is the `none`
case, which no use reaches (R72, R149). -/
def toBin (v N : Nat) : Option (BitVec N) := if v < 2 ^ N then some (BitVec.ofNat N v) else none

/-- The first `k` consecutive groups of `n` elements. -/
def chunks {α : Type} (n : Nat) : Nat → List α → List (List α)
  | 0, _ => []
  | k + 1, s => s.take n :: chunks n k (s.drop n)

/-- `GROUPBY(n, s)` (R66), where every group is full; on a last group shorter than `n` the spec specifies nothing
(93 U3) and so there is no answer. -/
def groupBy {α : Type} (n : Nat) (s : List α) : Option (List (List α)) :=
  if 1 ≤ n ∧ s.length % n = 0 then some (chunks n (s.length / n) s) else none

/-- `SPLITEVERY(n, v)` (R67): slice `j` is `v[L-1-jn : L-n-jn]`; no answer where the last chunk would be shorter (93 U3). -/
def splitEvery (n : Nat) {L : Nat} (v : BitVec L) : Option (List (BitVec n)) :=
  if 1 ≤ n ∧ L % n = 0 then some ((List.range (L / n)).map fun j => v.extractLsb' (L - n - j * n) n) else none

/-- The bit string of a vector: character `j` is bit `N-1-j`, the most significant first (00_scope.md section 6.1). -/
def bitString {N : Nat} (v : BitVec N) : List Bool := (List.range N).map fun j => v.getMsbD j

/-- Parse a bit string "as an unsigned integer", first character most significant (93 G2), into `N` bits. -/
def parseBits (N : Nat) (cs : List Bool) : BitVec N :=
  BitVec.ofNat N (cs.foldl (fun acc c => 2 * acc + c.toNat) 0)

/-- The 33-bit group `b0 ∥ b1 ∥ b2 ∥ b3 ∥ 0` (20_memory.md R32). -/
def bytesGroup (b0 b1 b2 b3 : Byte) : Group := b0 ++ b1 ++ b2 ++ b3 ++ 0#1

/-- The 33-bit group `w0 ∥ w1 ∥ w2` (R69). -/
def wordsGroup (w0 w1 w2 : Index) : Group := w0 ++ w1 ++ w2

/-- The three indices of a group, in sequence order. -/
structure Words3 where
  w0 : Index
  w1 : Index
  w2 : Index
deriving DecidableEq, Repr

/-- The four bytes of a group in sequence order, and its pad bit. -/
structure Bytes4 where
  b0 : Byte
  b1 : Byte
  b2 : Byte
  b3 : Byte
  pad : BitVec 1
deriving DecidableEq, Repr

/-- `PACK4` (R68). -/
def pack4 (b0 b1 b2 b3 : Byte) : Words3 :=
  let g := bytesGroup b0 b1 b2 b3
  ⟨g.extractLsb 32 22, g.extractLsb 21 11, g.extractLsb 10 0⟩

/-- `UNPACK3` (R69). The pad bit is delivered and never checked. -/
def unpack3 (w0 w1 w2 : Index) : Bytes4 :=
  let g := wordsGroup w0 w1 w2
  ⟨g.extractLsb 32 25, g.extractLsb 24 17, g.extractLsb 16 9, g.extractLsb 8 1, g.extractLsb 0 0⟩

/-- The data words of a padded byte sequence: `PACK4` group by group, in order (42_encoder.md R96 steps 3 to 5). Its
argument has a length that is a multiple of 4, so the second case is the end of the sequence. -/
def packGroups : List Byte → List Index
  | b0 :: b1 :: b2 :: b3 :: rest =>
    let w := pack4 b0 b1 b2 b3
    w.w0 :: w.w1 :: w.w2 :: packGroups rest
  | _ => []

/-- The padded byte sequence of the data words: `UNPACK3` group by group, in order, the pad bit discarded
(43_decoder.md R111 step 5, R117). Its argument has a length that is a multiple of 3. -/
def unpackGroups : List Index → List Byte
  | w0 :: w1 :: w2 :: rest =>
    let b := unpack3 w0 w1 w2
    b.b0 :: b.b1 :: b.b2 :: b.b3 :: unpackGroups rest
  | _ => []

end Sys2Proof.Machine
end

