-- ==== Sys2Proof/Machine/CheckWord.lean ====
section
/-! DEFINITION. The checksum engine and the check-word codec (41_checkword_codec.md). -/

namespace Sys2Proof.Machine

/-- `DROPCNT(n) = (4 - (n mod 4)) mod 4` (R82). -/
def dropCnt (n : Nat) : DropCount := BitVec.ofNat 2 ((4 - n % 4) % 4)

/-- `CSUM_STEP(acc, b)`: 9-bit addition, the carry out of bit 8 discarded (R83). -/
def csumStep (acc : Checksum) (b : Byte) : Checksum := acc + b.setWidth 9

/-- `CSUM(s)`: fold `CSUM_STEP` over `s` from 0 (R84). -/
def csum (s : List Byte) : Checksum := s.foldl csumStep 0#9

/-- `CKENC(d, c) = d ∥ c` (R86). -/
def ckEnc (d : DropCount) (c : Checksum) : Index := d ++ c

/-- `CKDEC(i)`: the drop count `i[10:9]` and the checksum `i[8:0]` (R87), drop count first (R91). -/
def ckDec (i : Index) : DropCount × Checksum := (i.extractLsb 10 9, i.extractLsb 8 0)

/-- `ENCODE_CHECKWORD(s) = CKENC(DROPCNT(len(s)), CSUM(s))`, from the unpadded bytes (R89). -/
def encodeCheckWord (s : List Byte) : Index := ckEnc (dropCnt s.length) (csum s)

end Sys2Proof.Machine
end

