-- ==== Sys2Proof/Machine/Decoder.lean ====
section
/-! DEFINITION. The decoder (43_decoder.md): the function `DECODE` and the command `DEC`. -/

namespace Sys2Proof.Machine

/-- The result of `DECODE`: `Ok(bytes)` or `Fail(kind)` (R111). -/
inductive Verdict where
  | ok (cand : List Byte)
  | fail (kind : ErrorKind)
deriving DecidableEq, Repr

/-- The result of `DECODE` with its by-products `d`, `e`, `a`, `pos` (R111). -/
structure Decoded where
  verdict : Verdict
  byp : ByProducts
deriving DecidableEq, Repr

/-- The candidate bytes: unpack the data words and drop the last `d` bytes, saturating at the empty sequence (R111 steps 5
and 6, R117, R118; decision D19). -/
def candidate (data : List Index) (d : DropCount) : List Byte :=
  let p := unpackGroups data
  p.take (p.length - d.toNat)

/-- Steps 5 to 7 of R111: unpack, truncate, verify. -/
def verifyGroups (data : List Index) (d : DropCount) (e : Checksum) : Decoded :=
  let cand := candidate data d
  let a := csum cand
  if a ≠ e then ⟨.fail .checksumMismatch, ⟨d, e, a, 0⟩⟩ else ⟨.ok cand, ⟨d, e, a, 0⟩⟩

/-- Steps 3 and 4 of R111: the first unknown data word, then the group structure (R115, R116). -/
def decodeData (data : List Entry) (d : DropCount) (e : Checksum) : Decoded :=
  match data.findIdx? Entry.unk with
  | some i => ⟨.fail .unknownWord, ⟨d, e, 0#9, i⟩⟩
  | none =>
    if data.length % 3 ≠ 0 then ⟨.fail .malformedInput, ⟨d, e, 0#9, 0⟩⟩
    else verifyGroups (data.map Entry.idx) d e

/-- `DECODE(w)` (R111): the first failing step ends it. Steps 1 and 2 are here (R113, R114). -/
def decodeWords (w : List Entry) : Decoded :=
  match w.getLast? with
  | none => ⟨.fail .malformedInput, .zero⟩
  | some ck =>
    if ck.unk then ⟨.fail .unknownWord, { ByProducts.zero with epos := w.length - 1 }⟩
    else
      let (d, e) := ckDec ck.idx
      decodeData w.dropLast d e

/-- `DEC` (R110): `WQ` is consumed in every outcome; on success `BQ` is replaced, on failure the error is taken (R150). -/
def execDec (s : State) : Host.Outcome State Fault Refusal :=
  let r := decodeWords s.wq
  match r.verdict with
  | .ok cand => .next ((((s.setWq []).setBq cand).setResults .none r.byp).respond .ok 0#12)
  | .fail kind => .next (s.raise kind r.byp)

end Sys2Proof.Machine
end

