-- ==== Sys2Proof/Machine/Encoder.lean ====
section
/-! DEFINITION. The encoder (42_encoder.md): the function `ENCODE` and the command `ENC`. -/

namespace Sys2Proof.Machine

/-- `b ++ zeros(DROPCNT(len b))` (R96 step 2, R102). -/
def padBytes (b : List Byte) : List Byte := b ++ List.replicate (dropCnt b.length).toNat 0#8

/-- `ENCODE(b)` (R96): the data words of the padded bytes, then the check-word of the unpadded ones. -/
def encodeBytes (b : List Byte) : List Index := packGroups (padBytes b) ++ [encodeCheckWord b]

/-- The register values `ENC` leaves beside `ERR = NONE` (R97). -/
def encByProducts (b : List Byte) : ByProducts where
  drop := dropCnt b.length
  csf := csum b
  csc := csum b
  epos := 0

/-- `ENC` (R95): `WQ` is replaced by `ENCODE(BQ)`, `BQ` is consumed. It never fails (R99). -/
def execEnc (s : State) : Host.Outcome State Fault Refusal :=
  let b := s.bq
  .next ((((s.setWq ((encodeBytes b).map knownEntry)).setBq []).setResults .none (encByProducts b)).respond .ok 0#12)

end Sys2Proof.Machine
end

