-- ==== Sys2Proof/Machine/QueueAccess.lean ====
section
/-! DEFINITION. Queue access (44_queue_and_control.md): `PUSHB`, `PUSHW`, `POPB`, `POPW`. -/

namespace Sys2Proof.Machine

/-- `PUSHB imm8` (R130). -/
def execPushb (imm8 : Byte) (s : State) : Host.Outcome State Fault Refusal :=
  if s.bq.length = s.bcap then .next (s.refuse .queueFull)
  else .next ((s.setBq (qPushTail s.bq imm8)).respond .ok 0#12)

/-- `PUSHW unk, idx` (R131). -/
def execPushw (unk : Bool) (idx : Index) (s : State) : Host.Outcome State Fault Refusal :=
  if s.wq.length = s.wcap then .next (s.refuse .queueFull)
  else .next ((s.setWq (qPushTail s.wq (pushwEntry unk idx))).respond .ok 0#12)

/-- `POPB` (R132). -/
def execPopb (s : State) : Host.Outcome State Fault Refusal :=
  match qPopHead s.bq with
  | none => .next (s.refuse .queueEmpty)
  | some (v, rest) => .next ((s.setBq rest).respond .ok (popbData v))

/-- `POPW` (R133). -/
def execPopw (s : State) : Host.Outcome State Fault Refusal :=
  match qPopHead s.wq with
  | none => .next (s.refuse .queueEmpty)
  | some (v, rest) => .next ((s.setWq rest).respond .ok (popwData v))

end Sys2Proof.Machine
end

