-- ==== Sys2Proof/Machine/Dispatch.lean ====
section
/-! DEFINITION. One arm per command: the meaning of each (R46). -/

namespace Sys2Proof.Machine

def exec (i : Instr) (s : State) : Host.Outcome State Fault Refusal :=
  match i with
  | .nop => Sys2Proof.Machine.execNop s
  | .clr => Sys2Proof.Machine.execClr s
  | .pushb imm8 => Sys2Proof.Machine.execPushb imm8 s
  | .pushw unk idx => Sys2Proof.Machine.execPushw unk idx s
  | .popb => Sys2Proof.Machine.execPopb s
  | .popw => Sys2Proof.Machine.execPopw s
  | .enc => Sys2Proof.Machine.execEnc s
  | .dec => Sys2Proof.Machine.execDec s

end Sys2Proof.Machine
end

