-- ==== Sys2Proof/Machine/Port.lean ====
section
/-! DEFINITION. The command port: what the block does with one input of the host (30_encoding.md R48, R49;
70_reset_and_hazards.md R170, R175, R181). -/

namespace Sys2Proof.Machine

/-- The inputs that remain for later steps. -/
def State.setCommands (q : List PortInput) (s : State) : State := { s with commands := q }

/-- Decode a command word and execute it; an illegal word is refused with `ILLEGAL_CMD` and never executed (R49, R152). -/
def serveCommand (w : CmdWord) (s : State) : Host.Outcome State Fault Refusal :=
  match decode w with
  | .legal i => exec i s
  | .illegal _ => .next (s.refuse .illegalCmd)

/-- Serve one input of the host. -/
def serveInput (input : PortInput) (s : State) : Host.Outcome State Fault Refusal :=
  match input with
  | .command w => serveCommand w s
  | .reset => execReset s

/-- The host presents nothing: the block waits and nothing changes. DESIGN CHOICE, log entry 4. -/
def idle (s : State) : Host.Outcome State Fault Refusal := .next s

/-- Take the next input from the port and serve it. -/
def servePort (s : State) : Host.Outcome State Fault Refusal :=
  match s.commands with
  | [] => idle s
  | input :: rest => serveInput input (s.setCommands rest)

/-- The host presents `input` next, before what it has already planned. -/
def State.present (input : PortInput) (s : State) : State := s.setCommands (input :: s.commands)

end Sys2Proof.Machine
end

