-- ==== Sys2Proof/Machine/Step.lean ====
section
/-! DEFINITION. One step of the machine: the block serves the host's next input (10_state.md R10). -/

namespace Sys2Proof.Machine

/-- One atomic step (R10, R175). -/
def step (s : State) : Host.Outcome State Fault Refusal := servePort s

/-- The state in which the host presents the table word next. The block fetches nothing (R20, R44): its next command is
the head of the host's list, so that is where the word is put. Log entry 2. -/
def State.withFetchWord (s : State) (nbits w : Nat) : State := s.present (.command (tableWord nbits w))

end Sys2Proof.Machine
end

