-- ==== Sys2Proof/Machine/Assembler.lean ====
section
/-! DEFINITION. The assembler (30_encoding.md R56, R57): a line of text, the line it denotes, and the command words it
stands for. Lexical detail the spec leaves open is in log entry 13. -/

namespace Sys2Proof.Machine

/-- `PUSHB imm8` as a word, for an operand in range. -/
def asmPushb (imm8 : Nat) : CmdWord := encode (.pushb (BitVec.ofNat 8 imm8))

/-- `PUSHW idx` (`unk = false`) or `PUSHWU idx` (`unk = true`) as a word, for an operand in range. -/
def asmPushw (unk : Bool) (idx : Nat) : CmdWord := encode (.pushw unk (BitVec.ofNat 11 idx))

/-- The command words of a line, its operands taken to be in range (R56, R57). -/
def expand : AsmLine → List CmdWord
  | .nop => [encode .nop]
  | .clr => [encode .clr]
  | .pushb imm8 => [asmPushb imm8]
  | .pushw idx => [asmPushw false idx]
  | .popb => [encode .popb]
  | .popw => [encode .popw]
  | .enc => [encode .enc]
  | .dec => [encode .dec]
  | .word v => [BitVec.ofNat 16 v]
  | .pushwu idx => [asmPushw true idx]
  | .pushbs bytes => bytes.map asmPushb
  | .pushws indices => indices.map (asmPushw false)
  | .popbs n => List.replicate n (encode .popb)
  | .popws n => List.replicate n (encode .popw)

/-- Assemble a line; none where an operand is out of range: "an assembly error, not a command" (R56). -/
def assemble (line : AsmLine) : Option (List CmdWord) := if line.wf then some (expand line) else none

/-- A space or a tab. -/
def isBlank (c : Char) : Bool := c = ' ' || c = '\t'

/-- Remove blanks at both ends. -/
def trim (cs : List Char) : List Char := ((cs.dropWhile isBlank).reverse.dropWhile isBlank).reverse

/-- A `;` starts a comment to the end of the line (R56). -/
def withoutComment (cs : List Char) : List Char := cs.takeWhile (· ≠ ';')

/-- Split at commas. -/
def splitCommas (cs : List Char) : List (List Char) :=
  cs.foldr (fun c acc => if c = ',' then [] :: acc else
    match acc with
    | [] => [[c]]
    | p :: ps => (c :: p) :: ps) [[]]

/-- The value of a digit, below 16. -/
def digitValue (c : Char) : Option Nat :=
  if '0' ≤ c ∧ c ≤ '9' then some (c.toNat - '0'.toNat)
  else if 'a' ≤ c ∧ c ≤ 'f' then some (c.toNat - 'a'.toNat + 10)
  else if 'A' ≤ c ∧ c ≤ 'F' then some (c.toNat - 'A'.toNat + 10)
  else none

/-- The number that digits denote in a base, after the value `acc` of the digits before them. -/
def digitsValue (base acc : Nat) : List Char → Option Nat
  | [] => some acc
  | c :: rest =>
    match digitValue c with
    | none => none
    | some d => if d < base then digitsValue base (base * acc + d) rest else none

/-- At least one digit. -/
def numberIn (base : Nat) (cs : List Char) : Option Nat := if cs.isEmpty then none else digitsValue base 0 cs

/-- "Numbers are decimal, `0x` hexadecimal or `0b` binary" (R56). -/
def number : List Char → Option Nat
  | '0' :: 'x' :: rest => numberIn 16 rest
  | '0' :: 'b' :: rest => numberIn 2 rest
  | cs => numberIn 10 cs

/-- All numbers of a list of operands, or none. -/
def numbers : List (List Char) → Option (List Nat)
  | [] => some []
  | cs :: rest =>
    match number cs, numbers rest with
    | some n, some ns => some (n :: ns)
    | _, _ => none

/-- The line of a mnemonic with its operands; none where R56 and R57 list no such form. -/
def lineOf (mnemonic : List Char) (operands : List Nat) : Option AsmLine :=
  match mnemonic, operands with
  | ['N', 'O', 'P'], [] => some .nop
  | ['C', 'L', 'R'], [] => some .clr
  | ['P', 'U', 'S', 'H', 'B'], [n] => some (.pushb n)
  | ['P', 'U', 'S', 'H', 'W'], [n] => some (.pushw n)
  | ['P', 'O', 'P', 'B'], [] => some .popb
  | ['P', 'O', 'P', 'W'], [] => some .popw
  | ['E', 'N', 'C'], [] => some .enc
  | ['D', 'E', 'C'], [] => some .dec
  | ['.', 'w', 'o', 'r', 'd'], [n] => some (.word n)
  | ['P', 'U', 'S', 'H', 'W', 'U'], [] => some (.pushwu 0)
  | ['P', 'U', 'S', 'H', 'W', 'U'], [n] => some (.pushwu n)
  | ['P', 'U', 'S', 'H', 'B', 'S'], ns => some (.pushbs ns)
  | ['P', 'U', 'S', 'H', 'W', 'S'], ns => some (.pushws ns)
  | ['P', 'O', 'P', 'B', 'S'], [n] => some (.popbs n)
  | ['P', 'O', 'P', 'W', 'S'], [n] => some (.popws n)
  | _, _ => none

/-- The command words of one line of text: none for a line that does not parse or has an operand out of range, no words
for a line that is blank or a comment. -/
def assembleLine (cs : List Char) : Option (List CmdWord) :=
  let body := trim (withoutComment cs)
  if body.isEmpty then some []
  else
    let mnemonic := body.takeWhile fun c => !isBlank c
    let rest := trim (body.dropWhile fun c => !isBlank c)
    match numbers (if rest.isEmpty then [] else (splitCommas rest).map trim) with
    | none => none
    | some operands =>
      match lineOf mnemonic operands with
      | none => none
      | some line => assemble line

end Sys2Proof.Machine
end

