-- ==== Sys2Proof/Machine/SplPipeline.lean ====
section
/-! DEFINITION. SPL's own wording of the regrouping, on bit strings: 40_bit_grouping.md R68 (encoder steps 4 and 5) and
R69 (decoder steps 3 to 5), built from the utilities of R65 to R67. `ENC` and `DEC` use `PACK4` and `UNPACK3`; this file is
what those are claimed to be equal to. -/

namespace Sys2Proof.Machine

/-- Apply `f` to every element; none where it has no answer for one. -/
def mapAll {α β : Type} (f : α → Option β) : List α → Option (List β)
  | [] => some []
  | x :: xs =>
    match f x, mapAll f xs with
    | some y, some ys => some (y :: ys)
    | _, _ => none

/-- "render each of the 4 bytes as an 8-bit string, concatenate (32 bits), append a single `0` bit" and "Split each 33-bit
string into three 11-bit chunks" (R68). -/
def splGroupWords (group : List Byte) : Option (List Index) :=
  splitEvery 11 (parseBits 33 (group.flatMap bitString ++ [false]))

/-- The data words of a padded byte sequence by SPL's steps 3 to 5. -/
def splDataWords (p : List Byte) : Option (List Index) :=
  match groupBy 4 p with
  | none => none
  | some groups => (mapAll splGroupWords groups).map List.flatten

/-- "drop the trailing padding bit to recover a 32-bit chunk; split each into four 8-bit substrings and parse as bytes"
(R69). -/
def splChunkBytes (chunk : Group) : Option (List Byte) := splitEvery 8 (chunk.extractLsb 32 1 : BitVec 32)

/-- The padded bytes of data words by SPL's steps 3 to 5: one long bit string, re-split into 33-bit chunks. -/
def splPaddedBytes (ws : List Index) : Option (List Byte) :=
  let long := ws.flatMap bitString
  match splitEvery 33 (parseBits long.length long) with
  | none => none
  | some cs => (mapAll splChunkBytes cs).map List.flatten

end Sys2Proof.Machine
end

