-- ==== Sys2Proof/Safety.lean ====
section
/-! DEFINITION. What holds of every state a run reaches (10_state.md R27), and what it is for two states to hold the same
block. -/

namespace Sys2Proof.Machine

/-- The invariants of R27 that speak of one state, with `GMAX >= 1` (00_scope.md R8). The ranges of bytes, entries and `ERR`
in R27 hold by their types. -/
structure State.Inv (s : State) : Prop where
  gmax_pos : 1 ≤ s.gmax
  bq_fits : s.bq.length ≤ s.bcap
  wq_fits : s.wq.length ≤ s.wcap
  epos_lt : s.epos < s.wcap
  epos_zero : s.err ≠ .unknownWord → s.epos = 0

/-- The two states hold the same block (R10): the queues and the five result registers. -/
structure State.SameBlock (s t : State) : Prop where
  bq : s.bq = t.bq
  wq : s.wq = t.wq
  err : s.err = t.err
  drop : s.drop = t.drop
  csf : s.csf = t.csf
  csc : s.csc = t.csc
  epos : s.epos = t.epos

/-- `k` steps of the machine, stopping at the first that gives no next state. -/
def run : Nat → State → Host.Outcome State Fault Refusal
  | 0, s => .next s
  | k + 1, s =>
    match step s with
    | .next t => run k t
    | .fault r => .fault r
    | .refused r => .refused r

/-- A state that some run reaches: after reset, a block of any legal capacity is given any inputs by the host. -/
inductive Reachable : State → Prop where
  | start (g : Nat) (inputs : List PortInput) (hg : 1 ≤ g) : Reachable { State.resetOf g with commands := inputs }
  | step {s t : State} (hs : Reachable s) (h : Sys2Proof.Machine.step s = .next t) : Reachable t

end Sys2Proof.Machine
end

