-- ==== Sys2Proof/Certificates/Slice0/Obligations.lean ====
section
/-! DEFINITION. The statements for the provers. Each docstring names the rule of spec/ it formalises, or the log entry it
rests on. A next state is written out as a record update of the state before, so each statement of a command's result is
its frame as well. The fields `gmax`, `commands` and `responses` in it are the MODEL's own, log entries 1 to 3. -/

open Sys2Proof Sys2Proof.Machine

/-! ### Encoding (30_encoding.md) -/

/-- Words written out from R56 and R57 decode to what those tables name, and reserved words to nothing. -/
def Obligations.DecodesWordsOfTheSpec : Prop :=
  decode 0x0000#16 = .legal .nop ∧
  decode 0x1000#16 = .legal .clr ∧
  decode 0x20C0#16 = .legal (.pushb 0xC0#8) ∧
  decode 0x3675#16 = .legal (.pushw false 1653#11) ∧
  decode 0x3800#16 = .legal (.pushw true 0#11) ∧
  decode 0x4000#16 = .legal .popb ∧
  decode 0x5000#16 = .legal .popw ∧
  decode 0x6000#16 = .legal .enc ∧
  decode 0x7000#16 = .legal .dec ∧
  decode 0x8000#16 = .illegal (.reservedOpcode 8#4) ∧
  decode 0x2100#16 = .illegal (.mustBeZero 2#4 0x100#12)

/-- Decoding the word of a well-formed command gives the command back, with every operand value. -/
def Obligations.DecodeEncodeRoundTrip : Prop :=
  ∀ i : Instr, i.wf = true → decode (encode i) = .legal i

/-- No word is a second spelling of a command: a legal word is the encoding of what it decodes to. -/
def Obligations.LegalWordIsItsCommandsEncoding : Prop :=
  ∀ (w : CmdWord) (i : Instr), decode w = .legal i → encode i = w

/-- The match/mask pairs of R48 decide the decoding, and a word that no pair matches is illegal. -/
def Obligations.MatchMaskPairsDecideDecoding : Prop :=
  ∀ w : CmdWord,
    (w &&& 0xFFFF#16 = 0x0000#16 → decode w = .legal .nop) ∧
    (w &&& 0xFFFF#16 = 0x1000#16 → decode w = .legal .clr) ∧
    (w &&& 0xFF00#16 = 0x2000#16 → decode w = .legal (.pushb (w.setWidth 8))) ∧
    (w &&& 0xF000#16 = 0x3000#16 → decode w = .legal (.pushw (w.getLsbD 11) (w.setWidth 11))) ∧
    (w &&& 0xFFFF#16 = 0x4000#16 → decode w = .legal .popb) ∧
    (w &&& 0xFFFF#16 = 0x5000#16 → decode w = .legal .popw) ∧
    (w &&& 0xFFFF#16 = 0x6000#16 → decode w = .legal .enc) ∧
    (w &&& 0xFFFF#16 = 0x7000#16 → decode w = .legal .dec) ∧
    (w &&& 0xFFFF#16 ∉ [0x0000#16, 0x1000#16, 0x4000#16, 0x5000#16, 0x6000#16, 0x7000#16] →
      w &&& 0xFF00#16 ≠ 0x2000#16 → w &&& 0xF000#16 ≠ 0x3000#16 → ∃ why, decode w = .illegal why)

/-! ### The step (10_state.md R10, 30_encoding.md R49, 70_reset_and_hazards.md R170) -/

/-- A step runs the decoded command: the port has moved past its word, and nothing else surrounds `exec`. -/
def Obligations.StepRunsTheDecodedCommand : Prop :=
  ∀ (s : State) (w : CmdWord) (i : Instr) (rest : List PortInput), decode w = .legal i →
    step { s with commands := .command w :: rest } = exec i { s with commands := rest }

/-- A command presented as its word is the very next one to run. -/
def Obligations.PresentedWordRunsNext : Prop :=
  ∀ (s : State) (i : Instr), step (s.withFetchWord 16 (encode i).toNat) = exec i s

/-- R49: a reserved opcode, or a defined one with a non-zero must-be-zero bit, is refused with no state change; and every
word has a defined effect. -/
def Obligations.IllegalWordIsRefusedUnchanged : Prop :=
  ∀ (s : State) (w : CmdWord) (rest : List PortInput),
    ((8#4 ≤ w.extractLsb 15 12 ∨
      (w.extractLsb 15 12 ∈ [0#4, 1#4, 4#4, 5#4, 6#4, 7#4] ∧ w.extractLsb 11 0 ≠ 0#12) ∨
      (w.extractLsb 15 12 = 2#4 ∧ w.extractLsb 11 8 ≠ 0#4)) →
      step { s with commands := .command w :: rest } =
        .next { s with commands := rest, responses := s.responses ++ [⟨.illegalCmd, 0#12⟩] }) ∧
    ∃ t, step { s with commands := .command w :: rest } = .next t

/-- R170: reset is a step like a command, in every state; it empties the queues, clears the registers and gives no
response. -/
def Obligations.ResetStepClearsTheBlock : Prop :=
  ∀ (s : State) (rest : List PortInput),
    step { s with commands := .reset :: rest } =
      .next { s with bq := [], wq := [], err := .none, drop := 0#2, csf := 0#9, csc := 0#9, epos := 0, commands := rest }

/-- The MODEL's choice, log entry 4: while the host presents nothing, a step changes nothing. -/
def Obligations.IdleStepChangesNothing : Prop :=
  ∀ s : State, s.commands = [] → step s = .next s

/-- R24: the reset values, at every capacity, and that `CLR` produces the same block. That the capacity parameter of
`State.reset` is `Config.gmax` is the MODEL's choice, log entry 1. -/
def Obligations.ResetStateIsEmptyAndZero : Prop :=
  (∀ g : Nat,
    (State.resetOf g).bq = [] ∧ (State.resetOf g).wq = [] ∧ (State.resetOf g).err.code = 0#3 ∧
    (State.resetOf g).drop = 0#2 ∧ (State.resetOf g).csf = 0#9 ∧ (State.resetOf g).csc = 0#9 ∧
    (State.resetOf g).epos = 0 ∧ (State.resetOf g).blen = 0 ∧ (State.resetOf g).wlen = 0) ∧
  State.reset = State.resetOf Config.gmax ∧
  ∀ s : State, ∃ t, exec .clr s = .next t ∧ t.SameBlock State.reset

/-- R153: every command word, in every state, gives one next state and exactly one response; nothing hangs or stops.
That no reset comes during a command is log entry 5. -/
def Obligations.EveryCommandResponds : Prop :=
  ∀ (s : State) (w : CmdWord) (rest : List PortInput), ∃ (t : State) (r : Response),
    step { s with commands := .command w :: rest } = .next t ∧
    t.responses = s.responses ++ [r] ∧ t.commands = rest

/-- What the model's own fields do in any step: the capacity parameter never changes (log entry 1), one input is taken
(log entry 2), and at most one response is added (log entry 3). -/
def Obligations.StepKeepsTheModelsOwnFields : Prop :=
  ∀ s t : State, step s = .next t →
    t.gmax = s.gmax ∧ t.commands = s.commands.tail ∧
    ∃ rs : List Response, t.responses = s.responses ++ rs ∧ rs.length ≤ 1

/-! ### Queue access and control (44_queue_and_control.md) -/

/-- R130: `PUSHB`. -/
def Obligations.PushbAppendsOrIsRefused : Prop :=
  (∀ (imm8 : Byte) (s : State),
    (s.bq.length ≠ 4 * s.gmax → exec (.pushb imm8) s =
      .next { s with bq := s.bq ++ [imm8], responses := s.responses ++ [⟨.ok, 0#12⟩] }) ∧
    (s.bq.length = 4 * s.gmax → exec (.pushb imm8) s =
      .next { s with responses := s.responses ++ [⟨.queueFull, 0#12⟩] }) ∧
    encode (.pushb imm8) = 0x2000#16 + imm8.setWidth 16) ∧
  ∀ w : CmdWord, w.extractLsb 15 12 = 2#4 → w.extractLsb 11 8 ≠ 0#4 → ∃ why, decode w = .illegal why

/-- R131: `PUSHW`; `idx` is stored as given whatever `unk` is, and all 4096 values of `arg` are legal. -/
def Obligations.PushwAppendsOrIsRefused : Prop :=
  (∀ (unk : Bool) (idx : Index) (s : State),
    (s.wq.length ≠ 3 * s.gmax + 1 → exec (.pushw unk idx) s =
      .next { s with wq := s.wq ++ [⟨unk, idx⟩], responses := s.responses ++ [⟨.ok, 0#12⟩] }) ∧
    (s.wq.length = 3 * s.gmax + 1 → exec (.pushw unk idx) s =
      .next { s with responses := s.responses ++ [⟨.queueFull, 0#12⟩] }) ∧
    (encode (.pushw unk idx)).toNat = 0x3000 + unk.toNat * 0x800 + idx.toNat) ∧
  ∀ arg : Word12, ∃ unk idx, decode (0x3#4 ++ arg) = .legal (.pushw unk idx)

/-- R132: `POPB`; the byte comes back zero-extended to 12 bits. -/
def Obligations.PopbTakesTheHeadOrIsRefused : Prop :=
  (∀ s : State,
    (∀ (v : Byte) (rest : List Byte), s.bq = v :: rest → exec .popb s =
      .next { s with bq := rest, responses := s.responses ++ [⟨.ok, v.setWidth 12⟩] }) ∧
    (s.bq = [] → exec .popb s = .next { s with responses := s.responses ++ [⟨.queueEmpty, 0#12⟩] })) ∧
  encode .popb = 0x4000#16

/-- R133: `POPW`; the entry comes back as the 12 bits `unk ∥ idx`. -/
def Obligations.PopwTakesTheHeadOrIsRefused : Prop :=
  (∀ s : State,
    (∀ (v : Entry) (rest : List Entry), s.wq = v :: rest → exec .popw s =
      .next { s with wq := rest, responses := s.responses ++ [⟨.ok, BitVec.ofBool v.unk ++ v.idx⟩] }) ∧
    (s.wq = [] → exec .popw s = .next { s with responses := s.responses ++ [⟨.queueEmpty, 0#12⟩] })) ∧
  encode .popw = 0x5000#16

/-- R135: `NOP`. -/
def Obligations.NopOnlyResponds : Prop :=
  (∀ s : State, exec .nop s = .next { s with responses := s.responses ++ [⟨.ok, 0#12⟩] }) ∧ encode .nop = 0x0000#16

/-- R136: `CLR`; the block afterwards is that of the reset state. -/
def Obligations.ClrClearsTheBlock : Prop :=
  (∀ s : State, exec .clr s =
    .next { s with bq := [], wq := [], err := .none, drop := 0#2, csf := 0#9, csc := 0#9, epos := 0,
                   responses := s.responses ++ [⟨.ok, 0#12⟩] }) ∧
  encode .clr = 0x1000#16

/-- The frame of the result registers (10_state.md section 3): a step that changes one of them serves reset or a word that
decodes to `CLR`, `ENC` or `DEC`. -/
def Obligations.OnlyEncDecClrAndResetWriteResultRegisters : Prop :=
  ∀ s t : State, step s = .next t →
    (t.err = s.err ∧ t.drop = s.drop ∧ t.csf = s.csf ∧ t.csc = s.csc ∧ t.epos = s.epos) ∨
    s.commands.head? = some .reset ∨
    ∃ w, s.commands.head? = some (.command w) ∧
      (decode w = .legal .clr ∨ decode w = .legal .enc ∨ decode w = .legal .dec)

/-- R33 with R130 and R131: pushes stand in the queues in push order. Running the words of `PUSHB` for the bytes of `b`,
when they fit, appends `b` to `BQ`. -/
def Obligations.PushedBytesStandInOrder : Prop :=
  ∀ (s : State) (b : List Byte) (rest : List PortInput), s.bq.length + b.length ≤ 4 * s.gmax →
    run b.length { s with commands := b.map (fun x => .command (encode (.pushb x))) ++ rest } =
      .next { s with bq := s.bq ++ b, commands := rest,
                     responses := s.responses ++ List.replicate b.length ⟨.ok, 0#12⟩ }

/-- R33 with R133: what was pushed first is popped first. -/
def Obligations.PoppedEntriesComeInOrder : Prop :=
  ∀ (s : State) (w left : List Entry) (rest : List PortInput), s.wq = w ++ left →
    run w.length { s with commands := List.replicate w.length (.command (encode .popw)) ++ rest } =
      .next { s with wq := left, commands := rest,
                     responses := s.responses ++ w.map (fun e => ⟨.ok, BitVec.ofBool e.unk ++ e.idx⟩) }

/-! ### Responses, refusals, codes (30_encoding.md R50, R51; 60_exceptions.md R151) -/

/-- The response codes that R51's table lists for a command. -/
def listedCodes : Instr → List Rc
  | .nop => [.ok]
  | .clr => [.ok]
  | .enc => [.ok]
  | .pushb _ => [.ok, .queueFull]
  | .pushw _ _ => [.ok, .queueFull]
  | .popb => [.ok, .queueEmpty]
  | .popw => [.ok, .queueEmpty]
  | .dec => [.ok, .opFailed]

/-- R51, the table of responses (the spec marks it "derived: from rules R49, R50 and the command rules they cite"): each
command gives the listed codes, each of them somewhere, and no other; an illegal word gives `ILLEGAL_CMD`. -/
def Obligations.CommandsGiveExactlyTheListedCodes : Prop :=
  (∀ (i : Instr) (s t : State), exec i s = .next t →
    ∃ rc rdata, t.responses = s.responses ++ [⟨rc, rdata⟩] ∧ rc ∈ listedCodes i) ∧
  (∀ (i : Instr) (rc : Rc), rc ∈ listedCodes i →
    ∃ (s t : State) (rdata : Word12), exec i s = .next t ∧ t.responses = s.responses ++ [⟨rc, rdata⟩]) ∧
  ∀ (w : CmdWord) (why : IllegalCmd), decode w = .illegal why → ∀ (s t : State) (rest : List PortInput),
    step { s with commands := .command w :: rest } = .next t → t.responses = s.responses ++ [⟨.illegalCmd, 0#12⟩]

/-- From R50: `rdata` is 0 in every response but that of a successful pop. -/
def Obligations.RdataIsZeroUnlessAPopSucceeds : Prop :=
  ∀ (s t : State) (w : CmdWord) (rest : List PortInput) (rc : Rc) (rdata : Word12),
    step { s with commands := .command w :: rest } = .next t →
    t.responses = s.responses ++ [⟨rc, rdata⟩] → rdata ≠ 0#12 →
    rc = .ok ∧ (decode w = .legal .popb ∨ decode w = .legal .popw)

/-- R151: the causes of the three refusals, and that a refusal changes no state. -/
def Obligations.RefusalsHaveTheirCausesAndChangeNothing : Prop :=
  ∀ (s t : State) (w : CmdWord) (rest : List PortInput) (rc : Rc) (rdata : Word12),
    step { s with commands := .command w :: rest } = .next t →
    t.responses = s.responses ++ [⟨rc, rdata⟩] →
    (rc = .illegalCmd ↔ ∃ why, decode w = .illegal why) ∧
    (rc = .queueFull ↔ ((∃ imm8, decode w = .legal (.pushb imm8)) ∧ s.blen = s.bcap) ∨
      ((∃ unk idx, decode w = .legal (.pushw unk idx)) ∧ s.wlen = s.wcap)) ∧
    (rc = .queueEmpty ↔ (decode w = .legal .popb ∧ s.blen = 0) ∨ (decode w = .legal .popw ∧ s.wlen = 0)) ∧
    (rc ∈ [.illegalCmd, .queueFull, .queueEmpty] →
      t = { s with commands := rest, responses := s.responses ++ [⟨rc, 0#12⟩] })

/-- The numeric codes of R15 and R50. -/
def Obligations.NumericCodesOfErrAndRc : Prop :=
  Err.none.code = 0#3 ∧ Err.malformedInput.code = 1#3 ∧ Err.unknownWord.code = 2#3 ∧ Err.checksumMismatch.code = 3#3 ∧
  Rc.ok.code = 0#3 ∧ Rc.illegalCmd.code = 1#3 ∧ Rc.queueFull.code = 2#3 ∧ Rc.queueEmpty.code = 3#3 ∧
  Rc.opFailed.code = 4#3

/-! ### The bit-packer (40_bit_grouping.md) -/

/-- R68: `PACK4`, its group and the three slices as arithmetic; `w2` is even. -/
def Obligations.Pack4SlicesTheGroup : Prop :=
  ∀ b0 b1 b2 b3 : Byte,
    (bytesGroup b0 b1 b2 b3).toNat = b0.toNat * 2 ^ 25 + b1.toNat * 2 ^ 17 + b2.toNat * 2 ^ 9 + b3.toNat * 2 ∧
    (pack4 b0 b1 b2 b3).w0.toNat = b0.toNat * 8 + b1.toNat / 32 ∧
    (pack4 b0 b1 b2 b3).w1.toNat = b1.toNat % 32 * 64 + b2.toNat / 4 ∧
    (pack4 b0 b1 b2 b3).w2.toNat = b2.toNat % 4 * 512 + b3.toNat * 2 ∧
    (pack4 b0 b1 b2 b3).w2.toNat % 2 = 0

/-- R69: `UNPACK3`, its group and the five slices as arithmetic; the four bytes do not depend on the pad bit. -/
def Obligations.Unpack3SlicesTheGroup : Prop :=
  ∀ w0 w1 w2 : Index,
    (wordsGroup w0 w1 w2).toNat = w0.toNat * 2 ^ 22 + w1.toNat * 2 ^ 11 + w2.toNat ∧
    (unpack3 w0 w1 w2).b0.toNat = w0.toNat / 8 ∧
    (unpack3 w0 w1 w2).b1.toNat = w0.toNat % 8 * 32 + w1.toNat / 64 ∧
    (unpack3 w0 w1 w2).b2.toNat = w1.toNat % 64 * 4 + w2.toNat / 512 ∧
    (unpack3 w0 w1 w2).b3.toNat = w2.toNat % 512 / 2 ∧
    (unpack3 w0 w1 w2).pad.toNat = w2.toNat % 2 ∧
    unpack3 w0 w1 (w2 ^^^ 1#11) = { unpack3 w0 w1 w2 with pad := (unpack3 w0 w1 w2).pad ^^^ 1#1 }

/-- R70 (the spec marks it "derived: from rules R68 and R69"):
`UNPACK3` undoes `PACK4`, with pad bit 0. -/
def Obligations.Unpack3UndoesPack4 : Prop :=
  ∀ b0 b1 b2 b3 : Byte,
    unpack3 (pack4 b0 b1 b2 b3).w0 (pack4 b0 b1 b2 b3).w1 (pack4 b0 b1 b2 b3).w2 = ⟨b0, b1, b2, b3, 0#1⟩

/-- R71 (the spec marks it "derived: from rules R68 and R69"):
`PACK4` after `UNPACK3` loses the pad bit and nothing else, so it is the identity exactly when `w2` is even;
`PACK4` is injective; two triples have the same bytes exactly when they differ in the pad bit at most. -/
def Obligations.Pack4AfterUnpack3ClearsThePadBit : Prop :=
  (∀ w0 w1 w2 : Index,
    pack4 (unpack3 w0 w1 w2).b0 (unpack3 w0 w1 w2).b1 (unpack3 w0 w1 w2).b2 (unpack3 w0 w1 w2).b3 =
      ⟨w0, w1, w2 - (w2 &&& 1#11)⟩ ∧
    (w2 - (w2 &&& 1#11) = w2 ↔ w2.toNat % 2 = 0)) ∧
  (∀ a0 a1 a2 a3 b0 b1 b2 b3 : Byte, pack4 a0 a1 a2 a3 = pack4 b0 b1 b2 b3 → a0 = b0 ∧ a1 = b1 ∧ a2 = b2 ∧ a3 = b3) ∧
  ∀ v0 v1 v2 w0 w1 w2 : Index,
    { unpack3 v0 v1 v2 with pad := 0#1 } = { unpack3 w0 w1 w2 with pad := 0#1 } ↔
      v0 = w0 ∧ v1 = w1 ∧ (v2 = w2 ∨ v2 = w2 ^^^ 1#11)

/-- R72 (the spec marks it "derived: from rules R65, R82, R84"):
every use of `TOBIN` has a value that fits its width. -/
def Obligations.EncodingErrorIsUnreachable : Prop :=
  (∀ b : Byte, toBin b.toNat 8 = some b) ∧
  (∀ i : Index, toBin i.toNat 11 = some i) ∧
  (∀ n : Nat, toBin ((4 - n % 4) % 4) 2 = some (dropCnt n)) ∧
  ∀ s : List Byte, toBin ((s.map BitVec.toNat).sum % 512) 9 = some (csum s)

/-- From R68 and 42_encoder.md R96: the encoder's regrouping is SPL's own pipeline on bit strings, group by group. That a
bit string has its most significant bit first is PRESUMED, log entry 10. -/
def Obligations.EncoderRegroupsAsSplsBitStrings : Prop :=
  ∀ b : List Byte, splDataWords (padBytes b) = some (packGroups (padBytes b))

/-- From R69: the decoder's regrouping is SPL's own pipeline, which joins all words into one bit string and re-splits it
into 33-bit chunks. That a bit string has its most significant bit first is PRESUMED, log entry 10. -/
def Obligations.DecoderRegroupsAsSplsBitStrings : Prop :=
  ∀ ws : List Index, ws.length % 3 = 0 → splPaddedBytes ws = some (unpackGroups ws)

/-! ### The checksum engine and the check-word codec (41_checkword_codec.md) -/

/-- R82: `DROPCNT`, its two's-complement form (a clause the spec marks "derived: `(4 - x) mod 4 = (-x) mod 4`"), and the
least multiple of 4. -/
def Obligations.DropCountCompletesTheLastGroup : Prop :=
  ∀ n : Nat,
    (dropCnt n).toNat = (4 - n % 4) % 4 ∧
    dropCnt n = -BitVec.ofNat 2 n ∧
    n + (dropCnt n).toNat = 4 * ((n + 3) / 4) ∧
    ∀ m : Nat, n ≤ m → m % 4 = 0 → n + (dropCnt n).toNat ≤ m

/-- R84, with the step of R83 (which the spec marks "derived: from rule R84"): one step is addition modulo 512, and
`CSUM` is the sum over naturals modulo 512, which is the fold of the step. -/
def Obligations.ChecksumIsTheByteSumModulo512 : Prop :=
  (∀ (acc : Checksum) (b : Byte), (csumStep acc b).toNat = (acc.toNat + b.toNat) % 512) ∧
  ∀ s : List Byte, (csum s).toNat = (s.map BitVec.toNat).sum % 512 ∧ csum s = s.foldl csumStep 0#9

/-- R85 (the spec marks it "derived: from rule R84"): the five laws of `CSUM`. -/
def Obligations.ChecksumLaws : Prop :=
  (∀ s t : List Byte, s.Perm t → csum s = csum t) ∧
  (∀ (s : List Byte) (k : Nat), csum (s ++ List.replicate k 0#8) = csum s) ∧
  (∀ s t : List Byte, (csum (s ++ t)).toNat = ((csum s).toNat + (csum t).toNat) % 512) ∧
  (∀ (s : List Byte) (i : Nat) (old new : Byte), s[i]? = some old → new ≠ old → csum (s.set i new) ≠ csum s) ∧
  csum [1#8, 0#8] = 1#9 ∧ csum [0#8, 1#8] = 1#9

/-- R86 and R87: the check-word field as arithmetic; and R88 (the spec marks it "derived: from rules R86 and R87"): the
two functions are inverse bijections. -/
def Obligations.CheckWordCodecIsABijection : Prop :=
  (∀ (d : DropCount) (c : Checksum), (ckEnc d c).toNat = d.toNat * 512 + c.toNat ∧ ckDec (ckEnc d c) = (d, c)) ∧
  ∀ i : Index, (ckDec i).1.toNat = i.toNat / 512 ∧ (ckDec i).2.toNat = i.toNat % 512 ∧
    ckEnc (ckDec i).1 (ckDec i).2 = i

/-! ### The encoder (42_encoder.md) -/

/-- R95 and R99: `ENC` and the whole state after it, in every state; the response is always `(OK, 0)`. -/
def Obligations.EncReplacesWordQueueByTheEncoding : Prop :=
  (∀ s : State, exec .enc s =
    .next { s with wq := (encodeBytes s.bq).map (fun i => ⟨false, i⟩), bq := [], err := .none,
                   drop := dropCnt s.bq.length, csf := csum s.bq, csc := csum s.bq, epos := 0,
                   responses := s.responses ++ [⟨.ok, 0#12⟩] }) ∧
  encode .enc = 0x6000#16

/-- R96 and R102: `ENCODE` position by position: group `k` of the padded bytes gives words `3k .. 3k+2`, and the
check-word of the unpadded bytes is last. -/
def Obligations.EncodePacksGroupsThenTheCheckWord : Prop :=
  ∀ b : List Byte,
    (encodeBytes b).length = 3 * ((b.length + 3) / 4) + 1 ∧
    (encodeBytes b)[3 * ((b.length + 3) / 4)]? = some (ckEnc (dropCnt b.length) (csum b)) ∧
    (b ++ List.replicate ((4 - b.length % 4) % 4) 0#8).length = 4 * ((b.length + 3) / 4) ∧
    ∀ (k : Nat) (b0 b1 b2 b3 : Byte),
      (b ++ List.replicate ((4 - b.length % 4) % 4) 0#8)[4 * k]? = some b0 →
      (b ++ List.replicate ((4 - b.length % 4) % 4) 0#8)[4 * k + 1]? = some b1 →
      (b ++ List.replicate ((4 - b.length % 4) % 4) 0#8)[4 * k + 2]? = some b2 →
      (b ++ List.replicate ((4 - b.length % 4) % 4) 0#8)[4 * k + 3]? = some b3 →
      (encodeBytes b)[3 * k]? = some (pack4 b0 b1 b2 b3).w0 ∧
      (encodeBytes b)[3 * k + 1]? = some (pack4 b0 b1 b2 b3).w1 ∧
      (encodeBytes b)[3 * k + 2]? = some (pack4 b0 b1 b2 b3).w2

/-- From R101 items 4 and 5 (the spec marks R101 "derived: from rules R96, R102"): every third data word is even, and
the padding shows as zero bits of the last group. -/
def Obligations.EncoderOutputShowsItsPadding : Prop :=
  ∀ b : List Byte,
    (∀ (k : Nat) (w : Index), k < (b.length + 3) / 4 → (encodeBytes b)[3 * k + 2]? = some w → w.toNat % 2 = 0) ∧
    (∀ a : List Byte, ∀ x : Byte, b = a ++ [x] → b.length % 4 = 1 →
      ∃ w0 : Index, w0.toNat = x.toNat * 8 ∧
        encodeBytes b = packGroups a ++ [w0, 0#11, 0#11, ckEnc 3#2 (csum b)]) ∧
    (b.length % 4 = 2 → ∃ w1 : Index, w1.toNat % 64 = 0 ∧
      (encodeBytes b)[3 * (b.length / 4) + 1]? = some w1 ∧ (encodeBytes b)[3 * (b.length / 4) + 2]? = some 0#11) ∧
    (b.length % 4 = 3 → ∃ w2 : Index, w2.toNat % 512 = 0 ∧ (encodeBytes b)[3 * (b.length / 4) + 2]? = some w2)

/-- From R101 item 6 (the spec marks R101 "derived: from rules R96, R102"): different byte sequences have different word
sequences. -/
def Obligations.EncodeIsInjective : Prop :=
  ∀ a b : List Byte, encodeBytes a = encodeBytes b → a = b

/-- R103: the empty input, as a function and as a command. -/
def Obligations.EmptyInputEncodesToOneZeroWord : Prop :=
  encodeBytes [] = [0#11] ∧
  ∀ s : State, s.bq = [] → ∃ t, exec .enc s = .next t ∧
    t.wq = [⟨false, 0#11⟩] ∧ t.drop = 0#2 ∧ t.csf = 0#9 ∧ t.csc = 0#9

/-! ### The decoder (43_decoder.md) -/

/-- R112: the state after `DEC` by outcome, the first row that applies, with the whole state written out. The word queue
is `data ++ [ck]` unless it is empty. -/
def Obligations.DecOutcomeTable : Prop :=
  ∀ s : State,
    (s.wq = [] → exec .dec s =
      .next { s with wq := [], bq := [], err := .malformedInput, drop := 0#2, csf := 0#9, csc := 0#9, epos := 0,
                     responses := s.responses ++ [⟨.opFailed, 0#12⟩] }) ∧
    ∀ (data : List Entry) (ck : Entry), s.wq = data ++ [ck] →
      (ck.unk = true → exec .dec s =
        .next { s with wq := [], bq := [], err := .unknownWord, drop := 0#2, csf := 0#9, csc := 0#9,
                       epos := data.length, responses := s.responses ++ [⟨.opFailed, 0#12⟩] }) ∧
      (ck.unk = false →
        (∀ (known left : List Entry) (e : Entry), data = known ++ e :: left → (∀ k ∈ known, k.unk = false) →
          e.unk = true → exec .dec s =
          .next { s with wq := [], bq := [], err := .unknownWord, drop := (ckDec ck.idx).1, csf := (ckDec ck.idx).2,
                         csc := 0#9, epos := known.length, responses := s.responses ++ [⟨.opFailed, 0#12⟩] }) ∧
        ((∀ e ∈ data, e.unk = false) →
          (data.length % 3 ≠ 0 → exec .dec s =
            .next { s with wq := [], bq := [], err := .malformedInput, drop := (ckDec ck.idx).1,
                           csf := (ckDec ck.idx).2, csc := 0#9, epos := 0,
                           responses := s.responses ++ [⟨.opFailed, 0#12⟩] }) ∧
          (data.length % 3 = 0 → ∀ cand : List Byte,
            cand = (unpackGroups (data.map Entry.idx)).take (4 * (data.length / 3) - (ckDec ck.idx).1.toNat) →
            (csum cand ≠ (ckDec ck.idx).2 → exec .dec s =
              .next { s with wq := [], bq := [], err := .checksumMismatch, drop := (ckDec ck.idx).1,
                             csf := (ckDec ck.idx).2, csc := csum cand, epos := 0,
                             responses := s.responses ++ [⟨.opFailed, 0#12⟩] }) ∧
            (csum cand = (ckDec ck.idx).2 → exec .dec s =
              .next { s with wq := [], bq := cand, err := .none, drop := (ckDec ck.idx).1,
                             csf := (ckDec ck.idx).2, csc := (ckDec ck.idx).2, epos := 0,
                             responses := s.responses ++ [⟨.ok, 0#12⟩] }))))

/-- R150: taking the error. A failing `DEC` records the kind and the by-products, empties both queues, answers
`(OP_FAILED, 0)`, and changes nothing else. -/
def Obligations.FailingDecTakesTheError : Prop :=
  ∀ (s : State) (kind : ErrorKind) (r : ByProducts), decodeWords s.wq = ⟨.fail kind, r⟩ →
    ∃ e : Err,
      (kind = .malformedInput → e.code = 1#3) ∧ (kind = .unknownWord → e.code = 2#3) ∧
      (kind = .checksumMismatch → e.code = 3#3) ∧
      exec .dec s =
        .next { s with wq := [], bq := [], err := e, drop := r.drop, csf := r.csf, csc := r.csc, epos := r.epos,
                       responses := s.responses ++ [⟨.opFailed, 0#12⟩] }

/-- From R117: each group of three indices gives four bytes by `UNPACK3`, in order, the pad bit discarded. On a list whose
length is no multiple of 3, which `DEC` never unpacks, the length is the MODEL's choice, log entry 9. -/
def Obligations.UnpackGroupsTakesWordsThreeAtATime : Prop :=
  ∀ ws : List Index,
    (unpackGroups ws).length = 4 * (ws.length / 3) ∧
    ∀ (k : Nat) (w0 w1 w2 : Index),
      ws[3 * k]? = some w0 → ws[3 * k + 1]? = some w1 → ws[3 * k + 2]? = some w2 →
      (unpackGroups ws)[4 * k]? = some (unpack3 w0 w1 w2).b0 ∧
      (unpackGroups ws)[4 * k + 1]? = some (unpack3 w0 w1 w2).b1 ∧
      (unpackGroups ws)[4 * k + 2]? = some (unpack3 w0 w1 w2).b2 ∧
      (unpackGroups ws)[4 * k + 3]? = some (unpack3 w0 w1 w2).b3

/-- R122 (the spec marks it "derived: from rules R96, R111, R70"):
the round trip, as functions and as the commands `ENC` then `DEC`. -/
def Obligations.DecodeUndoesEncode : Prop :=
  (∀ b : List Byte, (decodeWords ((encodeBytes b).map fun i => ⟨false, i⟩)).verdict = .ok b) ∧
  ∀ s : State, ∃ t u, exec .enc s = .next t ∧ exec .dec t = .next u ∧
    u = { s with wq := [], err := .none, drop := dropCnt s.bq.length, csf := csum s.bq, csc := csum s.bq, epos := 0,
                 responses := s.responses ++ [⟨.ok, 0#12⟩, ⟨.ok, 0#12⟩] }

/-- R123: the sequences that it lists, each accepted with the result it gives; then each of its four kinds in general,
with the clause that no `ENCODE` produces such a sequence. Where R123's third kind is concerned that clause is false of
R96: the sequence is not the encoding of the bytes it came from, but it is that of those bytes with some of their
padding, log entry 18. -/
def Obligations.NonCanonicalSequencesAreAccepted : Prop :=
  ((decodeWords ([0#11, 0#11, 1#11, 0#11].map knownEntry)).verdict = .ok [0#8, 0#8, 0#8, 0#8] ∧
    (decodeWords ([8#11, 128#11, 1544#11, 518#11].map knownEntry)).verdict = .ok [1#8, 2#8, 3#8] ∧
    (decodeWords ([40#11, 0#11, 0#11, 5#11].map knownEntry)).verdict = .ok [5#8, 0#8, 0#8, 0#8] ∧
    (decodeWords ([512#11].map knownEntry)).verdict = .ok [] ∧
    (decodeWords ([1024#11].map knownEntry)).verdict = .ok [] ∧
    (decodeWords ([1536#11].map knownEntry)).verdict = .ok [] ∧
    (∀ a : List Byte, encodeBytes a ∉
      [[0#11, 0#11, 1#11, 0#11], [8#11, 128#11, 1544#11, 518#11], [512#11], [1024#11], [1536#11]]) ∧
    encodeBytes [5#8] = [40#11, 0#11, 0#11, 1541#11] ∧
    encodeBytes [5#8, 0#8, 0#8, 0#8] = [40#11, 0#11, 0#11, 5#11]) ∧
  (∀ (b : List Byte) (k : Nat) (w : Index) (ws : List Index), k < (b.length + 3) / 4 →
    (encodeBytes b)[3 * k + 2]? = some w → ws = (encodeBytes b).set (3 * k + 2) (w ^^^ 1#11) →
    (decodeWords (ws.map knownEntry)).verdict = .ok b ∧ ∀ a : List Byte, encodeBytes a ≠ ws) ∧
  (∀ (p : List Byte) (d : DropCount) (ws : List Index), p.length % 4 = 0 →
    ws = packGroups p ++ [ckEnc d (csum (p.take (p.length - d.toNat)))] →
    (decodeWords (ws.map knownEntry)).verdict = .ok (p.take (p.length - d.toNat)) ∧
    ((∃ x ∈ p.drop (p.length - d.toNat), x ≠ 0#8) → ∀ a : List Byte, encodeBytes a ≠ ws)) ∧
  (∀ (b : List Byte) (d : DropCount) (ws : List Index), d.toNat < (dropCnt b.length).toNat →
    ws = packGroups (padBytes b) ++ [ckEnc d (csum b)] →
    (decodeWords (ws.map knownEntry)).verdict =
      .ok (b ++ List.replicate ((dropCnt b.length).toNat - d.toNat) 0#8) ∧
    ws ≠ encodeBytes b ∧
    ws = encodeBytes (b ++ List.replicate ((dropCnt b.length).toNat - d.toNat) 0#8)) ∧
  ∀ d : DropCount, d ≠ 0#2 →
    (decodeWords ([ckEnc d 0#9].map knownEntry)).verdict = .ok [] ∧ ∀ a : List Byte, encodeBytes a ≠ [ckEnc d 0#9]

/-- From R123 item 1: flipping the pad bit of any group changes nothing that `DECODE` answers. -/
def Obligations.PadBitsNeverMatter : Prop :=
  ∀ (data : List Entry) (ck e : Entry) (k : Nat), data[3 * k + 2]? = some e →
    decodeWords (data.set (3 * k + 2) ⟨e.unk, e.idx ^^^ 1#11⟩ ++ [ck]) = decodeWords (data ++ [ck])

/-- R124 (the spec marks it "derived: from rules R111, R118, R119"):
restricted checksum sensitivity: a check-word with another checksum field and the same or a lower drop field is a
mismatch with both values surfaced; with a higher drop field it need not be. -/
def Obligations.ChecksumFieldChangeIsDetected : Prop :=
  (∀ (b : List Byte) (d : DropCount) (c : Checksum), d.toNat ≤ (dropCnt b.length).toNat → c ≠ csum b →
    decodeWords ((packGroups (padBytes b) ++ [ckEnc d c]).map fun i => ⟨false, i⟩) =
      ⟨.fail .checksumMismatch, ⟨d, c, csum b, 0⟩⟩) ∧
  ∃ (b : List Byte) (d : DropCount) (c : Checksum) (cand : List Byte), c ≠ csum b ∧
    (decodeWords ((packGroups (padBytes b) ++ [ckEnc d c]).map fun i => ⟨false, i⟩)).verdict = .ok cand

/-- R127 (the spec marks it "derived: from rules R111, R118"):
the length of a successful result, and that each length is reached by exactly one pair of group count and drop
count. -/
def Obligations.ResultLengthFixesGroupsAndDropCount : Prop :=
  (∀ (w : List Entry) (cand : List Byte) (r : ByProducts), decodeWords w = ⟨.ok cand, r⟩ →
    cand.length = 4 * ((w.length - 1) / 3) - r.drop.toNat) ∧
  (∀ (n G : Nat) (d : DropCount), 1 ≤ n →
    (1 ≤ G ∧ 4 * G - d.toNat = n ↔ G = (n + 3) / 4 ∧ d = dropCnt n)) ∧
  ∀ d : DropCount, (decodeWords [⟨false, ckEnc d 0#9⟩]).verdict = .ok []

/-- R100 and R121 (the spec marks them "derived: from rule R96" and "from rule R111"): the capacities suffice for every
`ENC` and every `DEC`. -/
def Obligations.ResultsAlwaysFit : Prop :=
  (∀ (g : Nat) (b : List Byte), b.length ≤ 4 * g → (encodeBytes b).length ≤ 3 * g + 1) ∧
  ∀ (g : Nat) (w : List Entry) (cand : List Byte) (r : ByProducts), w.length ≤ 3 * g + 1 →
    decodeWords w = ⟨.ok cand, r⟩ → cand.length ≤ 4 * g

/-! ### Whole-machine rules -/

/-- From R177 (the spec marks it "derived: from" R104, R125 and others): the outcome of `ENC` depends on `BQ` alone and
that of `DEC` on `WQ` alone, whatever else two states hold. -/
def Obligations.EncAndDecForgetHistory : Prop :=
  ∀ s s' : State,
    (s.bq = s'.bq → ∃ t t' r, exec .enc s = .next t ∧ exec .enc s' = .next t' ∧ t.SameBlock t' ∧
      t.responses = s.responses ++ [r] ∧ t'.responses = s'.responses ++ [r]) ∧
    (s.wq = s'.wq → ∃ t t' r, exec .dec s = .next t ∧ exec .dec s' = .next t' ∧ t.SameBlock t' ∧
      t.responses = s.responses ++ [r] ∧ t'.responses = s'.responses ++ [r])

/-- From R23: no command's behaviour depends on a result register. Two states that differ in these five only give the same
next state whole, or a command that writes none of the five leaves each state its own. -/
def Obligations.NoCommandReadsAResultRegister : Prop :=
  ∀ (i : Instr) (s t : State) (e : Err) (d : DropCount) (c a : Checksum) (p : Nat), exec i s = .next t →
    ∃ t', exec i { s with err := e, drop := d, csf := c, csc := a, epos := p } = .next t' ∧
      (t' = t ∨
        t' = { t with err := e, drop := d, csf := c, csc := a, epos := p } ∧
        t.err = s.err ∧ t.drop = s.drop ∧ t.csf = s.csf ∧ t.csc = s.csc ∧ t.epos = s.epos)

/-- The invariant holds at reset, and at the reset state of every legal capacity. -/
def Obligations.ResetMeetsTheInvariants : Prop :=
  State.reset.Inv ∧ ∀ g : Nat, 1 ≤ g → (State.resetOf g).Inv

/-- From R27 (the spec marks it "derived: from rules R11, R12, R15, R18" and R112): every step keeps the invariants. -/
def Obligations.StepKeepsTheInvariants : Prop :=
  ∀ s t : State, s.Inv → step s = .next t → t.Inv

/-- R27 (the spec marks it "derived: from rules R11, R12, R15, R18" and R112):
what holds in every reachable state, and right after a failing `DEC`. -/
def Obligations.ReachableStatesMeetTheInvariants : Prop :=
  ∀ s : State, Reachable s →
    s.bq.length ≤ s.bcap ∧ s.wq.length ≤ s.wcap ∧ (∀ b ∈ s.bq, b.toNat < 256) ∧ (∀ e ∈ s.wq, e.bits.toNat < 4096) ∧
    s.err.code.toNat ≤ 3 ∧ s.epos < s.wcap ∧ (s.err ≠ .unknownWord → s.epos = 0) ∧
    ∀ t, exec .dec s = .next t → t.err ≠ .none → t.bq = [] ∧ t.wq = []

/-- From R139 (the spec marks it "derived: from rules R130, R133" and R95): the transaction that performs
`encode(bytes)`: `CLR`, a `PUSHB` for each byte, `ENC`, and a `POPW` for each word of the result. The responses of the
pops are the words. That the inputs stand in State is log entry 2, and that no reset comes during a command is log entry
5. -/
def Obligations.EncodeTransactionReturnsTheWords : Prop :=
  ∀ (s : State) (b : List Byte) (rest : List PortInput), b.length ≤ 4 * s.gmax →
    ∃ t : State,
      run (b.length + 3 * ((b.length + 3) / 4) + 3)
        { s with commands := .command (encode .clr) :: (b.map (fun x => .command (encode (.pushb x))) ++
            .command (encode .enc) :: (List.replicate (3 * ((b.length + 3) / 4) + 1) (.command (encode .popw)) ++ rest)) } = .next t ∧
      t.responses = s.responses ++ (List.replicate (b.length + 2) ⟨.ok, 0#12⟩ ++
        (encodeBytes b).map (fun i => ⟨.ok, i.setWidth 12⟩)) ∧
      t.bq = [] ∧ t.wq = [] ∧ t.err = .none ∧ t.commands = rest

/-- From R140 (the spec marks it "derived: from rules R131, R132" and R110): the transaction that performs
`decode(words)`: `CLR`, a `PUSHW` for each word, `DEC`. On success as many `POPB` as there are bytes return them in
order; on failure `ERR` is set and there is nothing to pop. That the inputs stand in State is log entry 2, and that no
reset comes during a command is log entry 5. -/
def Obligations.DecodeTransactionReturnsTheBytes : Prop :=
  ∀ (s : State) (w : List Entry) (rest : List PortInput), w.length ≤ 3 * s.gmax + 1 →
    (∀ (cand : List Byte) (r : ByProducts), decodeWords w = ⟨.ok cand, r⟩ → ∃ t : State,
      run (w.length + cand.length + 2)
        { s with commands := .command (encode .clr) :: (w.map (fun e => .command (encode (.pushw e.unk e.idx))) ++
            .command (encode .dec) :: (List.replicate cand.length (.command (encode .popb)) ++ rest)) } = .next t ∧
      t.responses = s.responses ++ (List.replicate (w.length + 2) ⟨.ok, 0#12⟩ ++
        cand.map (fun v => ⟨.ok, v.setWidth 12⟩)) ∧
      t.bq = [] ∧ t.wq = [] ∧ t.err = .none ∧ t.commands = rest) ∧
    (∀ (kind : ErrorKind) (r : ByProducts), decodeWords w = ⟨.fail kind, r⟩ → ∃ t : State,
      run (w.length + 2)
        { s with commands := .command (encode .clr) :: (w.map (fun e => .command (encode (.pushw e.unk e.idx))) ++
            .command (encode .dec) :: rest) } = .next t ∧
      t.responses = s.responses ++ (List.replicate (w.length + 1) ⟨.ok, 0#12⟩ ++ [⟨.opFailed, 0#12⟩]) ∧
      t.bq = [] ∧ t.wq = [] ∧ t.err = kind.toErr ∧ t.drop = r.drop ∧ t.csf = r.csf ∧ t.csc = r.csc ∧ t.epos = r.epos ∧
      t.commands = rest)

/-- R57: the expansions of the pseudo-instructions. -/
def Obligations.PseudoInstructionsExpand : Prop :=
  assemble (.pushwu 0) = some [0x3800#16] ∧
  (∀ idx : Nat, idx ≤ 2047 → assemble (.pushwu idx) = some [BitVec.ofNat 16 (0x3800 + idx)]) ∧
  (∀ bs : List Nat, bs ≠ [] → (∀ b ∈ bs, b ≤ 255) →
    assemble (.pushbs bs) = some (bs.map fun b => BitVec.ofNat 16 (0x2000 + b))) ∧
  (∀ is : List Nat, is ≠ [] → (∀ i ∈ is, i ≤ 2047) →
    assemble (.pushws is) = some (is.map fun i => BitVec.ofNat 16 (0x3000 + i))) ∧
  ∀ n : Nat, assemble (.popws n) = some (List.replicate n 0x5000#16) ∧
    assemble (.popbs n) = some (List.replicate n 0x4000#16)

/-- From R56, the bound of `.word` by log entry 13: the encodings of the assembler's own lines, and that an operand out
of range is an assembly error. -/
def Obligations.AssemblerLinesHaveTheirWords : Prop :=
  (∀ n : Nat, assemble (.pushb n) = if n ≤ 255 then some [BitVec.ofNat 16 (0x2000 + n)] else none) ∧
  (∀ n : Nat, assemble (.pushw n) = if n ≤ 2047 then some [BitVec.ofNat 16 (0x3000 + n)] else none) ∧
  (∀ n : Nat, assemble (.word n) = if n < 65536 then some [BitVec.ofNat 16 n] else none) ∧
  assemble .nop = some [0x0000#16] ∧ assemble .clr = some [0x1000#16] ∧ assemble .popb = some [0x4000#16] ∧
  assemble .popw = some [0x5000#16] ∧ assemble .enc = some [0x6000#16] ∧ assemble .dec = some [0x7000#16]
end

