-- ==== Sys2Proof/Laws/Bits.lean ====
section
/-! SUPPORT. Concatenation and slicing of bit vectors as arithmetic (00_scope.md section 6.1), so that a bit layout becomes a
fact about natural numbers. -/

namespace Sys2Proof

/-- `a ∥ b = a * 2^m + b` for `b` of width `m`. -/
theorem toNat_concat {n m : Nat} (a : BitVec n) (b : BitVec m) : (a ++ b).toNat = a.toNat * 2 ^ m + b.toNat := by
  rw [BitVec.toNat_append, Nat.shiftLeft_eq, ← Nat.shiftLeft_eq, Nat.shiftLeft_add_eq_or_of_lt b.isLt, Nat.shiftLeft_eq]

/-- `v[hi:lo] = (v >> lo) mod 2^(hi-lo+1)`. -/
theorem toNat_slice {n : Nat} (v : BitVec n) (hi lo : Nat) :
    (v.extractLsb hi lo).toNat = v.toNat / 2 ^ lo % 2 ^ (hi - lo + 1) := by
  rw [BitVec.extractLsb_toNat, Nat.shiftRight_eq_div_pow]

end Sys2Proof
end

