-- ==== Sys2Proof/Laws/Decoder.lean ====
section
/-! SUPPORT. `DECODE` on a word sequence split into its data words and its check-word, so that no proof works with the last
element of a list. -/

namespace Sys2Proof.Machine

/-- Step 1 on the empty sequence (43_decoder.md R113). -/
theorem decodeWords_nil : decodeWords [] = ⟨.fail .malformedInput, .zero⟩ := rfl

/-- Steps 1 and 2 on a sequence that has a check-word (43_decoder.md R114). -/
theorem decodeWords_snoc (data : List Entry) (ck : Entry) :
    decodeWords (data ++ [ck]) =
      if ck.unk then ⟨.fail .unknownWord, ⟨0#2, 0#9, 0#9, data.length⟩⟩
      else decodeData data (ckDec ck.idx).1 (ckDec ck.idx).2 := by
  simp [decodeWords, ByProducts.zero]

/-- With every data word known, step 3 passes (43_decoder.md R115). -/
theorem decodeData_known {data : List Entry} (h : ∀ e ∈ data, e.unk = false) (d : DropCount) (c : Checksum) :
    decodeData data d c =
      if data.length % 3 ≠ 0 then ⟨.fail .malformedInput, ⟨d, c, 0#9, 0⟩⟩
      else verifyGroups (data.map Entry.idx) d c := by
  have hn : data.findIdx? Entry.unk = none := List.findIdx?_eq_none_iff.2 (by simpa using h)
  simp [decodeData, hn]

end Sys2Proof.Machine
end

