-- ==== Sys2Proof/Laws/State.lean ====
section
/-! SUPPORT. One lemma per field per state update, so that no proof unfolds a record update. -/

namespace Sys2Proof.Machine

variable (s : State)

@[simp] theorem State.respond_gmax (rc : Rc) (rdata : Word12) : (s.respond rc rdata).gmax = s.gmax := rfl
@[simp] theorem State.respond_bq (rc : Rc) (rdata : Word12) : (s.respond rc rdata).bq = s.bq := rfl
@[simp] theorem State.respond_wq (rc : Rc) (rdata : Word12) : (s.respond rc rdata).wq = s.wq := rfl
@[simp] theorem State.respond_err (rc : Rc) (rdata : Word12) : (s.respond rc rdata).err = s.err := rfl
@[simp] theorem State.respond_drop (rc : Rc) (rdata : Word12) : (s.respond rc rdata).drop = s.drop := rfl
@[simp] theorem State.respond_csf (rc : Rc) (rdata : Word12) : (s.respond rc rdata).csf = s.csf := rfl
@[simp] theorem State.respond_csc (rc : Rc) (rdata : Word12) : (s.respond rc rdata).csc = s.csc := rfl
@[simp] theorem State.respond_epos (rc : Rc) (rdata : Word12) : (s.respond rc rdata).epos = s.epos := rfl
@[simp] theorem State.respond_commands (rc : Rc) (rdata : Word12) : (s.respond rc rdata).commands = s.commands := rfl
@[simp] theorem State.respond_responses (rc : Rc) (rdata : Word12) : (s.respond rc rdata).responses = s.responses ++ [⟨rc, rdata⟩] := rfl

@[simp] theorem State.refuse_gmax (rc : Rc) : (s.refuse rc).gmax = s.gmax := rfl
@[simp] theorem State.refuse_bq (rc : Rc) : (s.refuse rc).bq = s.bq := rfl
@[simp] theorem State.refuse_wq (rc : Rc) : (s.refuse rc).wq = s.wq := rfl
@[simp] theorem State.refuse_err (rc : Rc) : (s.refuse rc).err = s.err := rfl
@[simp] theorem State.refuse_drop (rc : Rc) : (s.refuse rc).drop = s.drop := rfl
@[simp] theorem State.refuse_csf (rc : Rc) : (s.refuse rc).csf = s.csf := rfl
@[simp] theorem State.refuse_csc (rc : Rc) : (s.refuse rc).csc = s.csc := rfl
@[simp] theorem State.refuse_epos (rc : Rc) : (s.refuse rc).epos = s.epos := rfl
@[simp] theorem State.refuse_commands (rc : Rc) : (s.refuse rc).commands = s.commands := rfl
@[simp] theorem State.refuse_responses (rc : Rc) : (s.refuse rc).responses = s.responses ++ [⟨rc, 0#12⟩] := rfl

@[simp] theorem State.setBq_gmax (q : List Byte) : (s.setBq q).gmax = s.gmax := rfl
@[simp] theorem State.setBq_bq (q : List Byte) : (s.setBq q).bq = q := rfl
@[simp] theorem State.setBq_wq (q : List Byte) : (s.setBq q).wq = s.wq := rfl
@[simp] theorem State.setBq_err (q : List Byte) : (s.setBq q).err = s.err := rfl
@[simp] theorem State.setBq_drop (q : List Byte) : (s.setBq q).drop = s.drop := rfl
@[simp] theorem State.setBq_csf (q : List Byte) : (s.setBq q).csf = s.csf := rfl
@[simp] theorem State.setBq_csc (q : List Byte) : (s.setBq q).csc = s.csc := rfl
@[simp] theorem State.setBq_epos (q : List Byte) : (s.setBq q).epos = s.epos := rfl
@[simp] theorem State.setBq_commands (q : List Byte) : (s.setBq q).commands = s.commands := rfl
@[simp] theorem State.setBq_responses (q : List Byte) : (s.setBq q).responses = s.responses := rfl

@[simp] theorem State.setWq_gmax (q : List Entry) : (s.setWq q).gmax = s.gmax := rfl
@[simp] theorem State.setWq_bq (q : List Entry) : (s.setWq q).bq = s.bq := rfl
@[simp] theorem State.setWq_wq (q : List Entry) : (s.setWq q).wq = q := rfl
@[simp] theorem State.setWq_err (q : List Entry) : (s.setWq q).err = s.err := rfl
@[simp] theorem State.setWq_drop (q : List Entry) : (s.setWq q).drop = s.drop := rfl
@[simp] theorem State.setWq_csf (q : List Entry) : (s.setWq q).csf = s.csf := rfl
@[simp] theorem State.setWq_csc (q : List Entry) : (s.setWq q).csc = s.csc := rfl
@[simp] theorem State.setWq_epos (q : List Entry) : (s.setWq q).epos = s.epos := rfl
@[simp] theorem State.setWq_commands (q : List Entry) : (s.setWq q).commands = s.commands := rfl
@[simp] theorem State.setWq_responses (q : List Entry) : (s.setWq q).responses = s.responses := rfl

@[simp] theorem State.setCommands_gmax (q : List PortInput) : (s.setCommands q).gmax = s.gmax := rfl
@[simp] theorem State.setCommands_bq (q : List PortInput) : (s.setCommands q).bq = s.bq := rfl
@[simp] theorem State.setCommands_wq (q : List PortInput) : (s.setCommands q).wq = s.wq := rfl
@[simp] theorem State.setCommands_err (q : List PortInput) : (s.setCommands q).err = s.err := rfl
@[simp] theorem State.setCommands_drop (q : List PortInput) : (s.setCommands q).drop = s.drop := rfl
@[simp] theorem State.setCommands_csf (q : List PortInput) : (s.setCommands q).csf = s.csf := rfl
@[simp] theorem State.setCommands_csc (q : List PortInput) : (s.setCommands q).csc = s.csc := rfl
@[simp] theorem State.setCommands_epos (q : List PortInput) : (s.setCommands q).epos = s.epos := rfl
@[simp] theorem State.setCommands_commands (q : List PortInput) : (s.setCommands q).commands = q := rfl
@[simp] theorem State.setCommands_responses (q : List PortInput) : (s.setCommands q).responses = s.responses := rfl

@[simp] theorem State.setResults_gmax (e : Err) (r : ByProducts) : (s.setResults e r).gmax = s.gmax := rfl
@[simp] theorem State.setResults_bq (e : Err) (r : ByProducts) : (s.setResults e r).bq = s.bq := rfl
@[simp] theorem State.setResults_wq (e : Err) (r : ByProducts) : (s.setResults e r).wq = s.wq := rfl
@[simp] theorem State.setResults_err (e : Err) (r : ByProducts) : (s.setResults e r).err = e := rfl
@[simp] theorem State.setResults_drop (e : Err) (r : ByProducts) : (s.setResults e r).drop = r.drop := rfl
@[simp] theorem State.setResults_csf (e : Err) (r : ByProducts) : (s.setResults e r).csf = r.csf := rfl
@[simp] theorem State.setResults_csc (e : Err) (r : ByProducts) : (s.setResults e r).csc = r.csc := rfl
@[simp] theorem State.setResults_epos (e : Err) (r : ByProducts) : (s.setResults e r).epos = r.epos := rfl
@[simp] theorem State.setResults_commands (e : Err) (r : ByProducts) : (s.setResults e r).commands = s.commands := rfl
@[simp] theorem State.setResults_responses (e : Err) (r : ByProducts) : (s.setResults e r).responses = s.responses := rfl

@[simp] theorem State.clearResults_gmax : (s.clearResults).gmax = s.gmax := rfl
@[simp] theorem State.clearResults_bq : (s.clearResults).bq = s.bq := rfl
@[simp] theorem State.clearResults_wq : (s.clearResults).wq = s.wq := rfl
@[simp] theorem State.clearResults_err : (s.clearResults).err = .none := rfl
@[simp] theorem State.clearResults_drop : (s.clearResults).drop = 0#2 := rfl
@[simp] theorem State.clearResults_csf : (s.clearResults).csf = 0#9 := rfl
@[simp] theorem State.clearResults_csc : (s.clearResults).csc = 0#9 := rfl
@[simp] theorem State.clearResults_epos : (s.clearResults).epos = 0 := rfl
@[simp] theorem State.clearResults_commands : (s.clearResults).commands = s.commands := rfl
@[simp] theorem State.clearResults_responses : (s.clearResults).responses = s.responses := rfl

@[simp] theorem State.clearBlock_gmax : (s.clearBlock).gmax = s.gmax := rfl
@[simp] theorem State.clearBlock_bq : (s.clearBlock).bq = [] := rfl
@[simp] theorem State.clearBlock_wq : (s.clearBlock).wq = [] := rfl
@[simp] theorem State.clearBlock_err : (s.clearBlock).err = .none := rfl
@[simp] theorem State.clearBlock_drop : (s.clearBlock).drop = 0#2 := rfl
@[simp] theorem State.clearBlock_csf : (s.clearBlock).csf = 0#9 := rfl
@[simp] theorem State.clearBlock_csc : (s.clearBlock).csc = 0#9 := rfl
@[simp] theorem State.clearBlock_epos : (s.clearBlock).epos = 0 := rfl
@[simp] theorem State.clearBlock_commands : (s.clearBlock).commands = s.commands := rfl
@[simp] theorem State.clearBlock_responses : (s.clearBlock).responses = s.responses := rfl

@[simp] theorem State.raise_gmax (k : ErrorKind) (r : ByProducts) : (s.raise k r).gmax = s.gmax := rfl
@[simp] theorem State.raise_bq (k : ErrorKind) (r : ByProducts) : (s.raise k r).bq = [] := rfl
@[simp] theorem State.raise_wq (k : ErrorKind) (r : ByProducts) : (s.raise k r).wq = [] := rfl
@[simp] theorem State.raise_err (k : ErrorKind) (r : ByProducts) : (s.raise k r).err = k.toErr := rfl
@[simp] theorem State.raise_drop (k : ErrorKind) (r : ByProducts) : (s.raise k r).drop = r.drop := rfl
@[simp] theorem State.raise_csf (k : ErrorKind) (r : ByProducts) : (s.raise k r).csf = r.csf := rfl
@[simp] theorem State.raise_csc (k : ErrorKind) (r : ByProducts) : (s.raise k r).csc = r.csc := rfl
@[simp] theorem State.raise_epos (k : ErrorKind) (r : ByProducts) : (s.raise k r).epos = r.epos := rfl
@[simp] theorem State.raise_commands (k : ErrorKind) (r : ByProducts) : (s.raise k r).commands = s.commands := rfl
@[simp] theorem State.raise_responses (k : ErrorKind) (r : ByProducts) : (s.raise k r).responses = s.responses ++ [⟨.opFailed, 0#12⟩] := rfl

@[simp] theorem State.resetOf_bq (g : Nat) : (State.resetOf g).bq = [] := rfl
@[simp] theorem State.resetOf_wq (g : Nat) : (State.resetOf g).wq = [] := rfl
@[simp] theorem State.resetOf_gmax (g : Nat) : (State.resetOf g).gmax = g := rfl

theorem Config.one_le_gmax : 1 ≤ Config.gmax := Nat.le_add_left 1 Config.extraGroups

end Sys2Proof.Machine
end

