-- ==== Sys2Proof/Laws/Ops.lean ====
section
/-! SUPPORT. What each shared operation can do, said once. -/

namespace Sys2Proof.Machine

@[simp] theorem qPushTail_eq {α : Type} (q : List α) (e : α) : qPushTail q e = q ++ [e] := rfl

@[simp] theorem qPopHead_nil {α : Type} : qPopHead ([] : List α) = none := rfl

@[simp] theorem qPopHead_cons {α : Type} (v : α) (rest : List α) : qPopHead (v :: rest) = some (v, rest) := rfl

/-- A pop either finds the queue empty or takes its head. -/
theorem qPopHead_cases {α : Type} (q : List α) :
    (q = [] ∧ qPopHead q = none) ∨ ∃ v rest, q = v :: rest ∧ qPopHead q = some (v, rest) := by
  cases q with
  | nil => exact .inl ⟨rfl, rfl⟩
  | cons v rest => exact .inr ⟨v, rest, rfl, rfl⟩

/-- `PUSHB` either finds `BQ` full or appends to it. -/
theorem execPushb_cases (b : Byte) (s : State) :
    (s.bq.length = s.bcap ∧ execPushb b s = .next (s.refuse .queueFull)) ∨
    (s.bq.length ≠ s.bcap ∧ execPushb b s = .next ((s.setBq (s.bq ++ [b])).respond .ok 0#12)) := by
  by_cases h : s.bq.length = s.bcap
  · exact .inl ⟨h, if_pos h⟩
  · exact .inr ⟨h, if_neg h⟩

/-- `PUSHW` either finds `WQ` full or appends to it. -/
theorem execPushw_cases (unk : Bool) (idx : Index) (s : State) :
    (s.wq.length = s.wcap ∧ execPushw unk idx s = .next (s.refuse .queueFull)) ∨
    (s.wq.length ≠ s.wcap ∧
      execPushw unk idx s = .next ((s.setWq (s.wq ++ [⟨unk, idx⟩])).respond .ok 0#12)) := by
  by_cases h : s.wq.length = s.wcap
  · exact .inl ⟨h, if_pos h⟩
  · exact .inr ⟨h, if_neg h⟩

/-- `POPB` either finds `BQ` empty or takes its head. -/
theorem execPopb_cases (s : State) :
    (s.bq = [] ∧ execPopb s = .next (s.refuse .queueEmpty)) ∨
    (∃ v rest, s.bq = v :: rest ∧ execPopb s = .next ((s.setBq rest).respond .ok (popbData v))) := by
  obtain ⟨h, hp⟩ | ⟨v, rest, h, hp⟩ := qPopHead_cases s.bq
  · exact .inl ⟨h, by simp [execPopb, hp]⟩
  · exact .inr ⟨v, rest, h, by simp [execPopb, hp]⟩

/-- `POPW` either finds `WQ` empty or takes its head. -/
theorem execPopw_cases (s : State) :
    (s.wq = [] ∧ execPopw s = .next (s.refuse .queueEmpty)) ∨
    (∃ v rest, s.wq = v :: rest ∧ execPopw s = .next ((s.setWq rest).respond .ok (popwData v))) := by
  obtain ⟨h, hp⟩ | ⟨v, rest, h, hp⟩ := qPopHead_cases s.wq
  · exact .inl ⟨h, by simp [execPopw, hp]⟩
  · exact .inr ⟨v, rest, h, by simp [execPopw, hp]⟩

/-- `DEC` either succeeds with the candidate bytes or takes the error. -/
theorem execDec_cases (s : State) :
    (∃ cand r, decodeWords s.wq = ⟨.ok cand, r⟩ ∧
      execDec s = .next ((((s.setWq []).setBq cand).setResults .none r).respond .ok 0#12)) ∨
    (∃ kind r, decodeWords s.wq = ⟨.fail kind, r⟩ ∧ execDec s = .next (s.raise kind r)) := by
  rcases h : decodeWords s.wq with ⟨_ | _, r⟩
  · exact .inl ⟨_, _, rfl, by simp [execDec, h]⟩
  · exact .inr ⟨_, _, rfl, by simp [execDec, h]⟩

/-- What the port does: idle, reset, refuse an illegal word, or run a command. -/
theorem step_cases (s : State) :
    (s.commands = [] ∧ step s = .next s) ∨
    (∃ rest, s.commands = .reset :: rest ∧ step s = .next (s.setCommands rest).clearBlock) ∨
    (∃ w rest why, s.commands = .command w :: rest ∧ decode w = .illegal why ∧
      step s = .next ((s.setCommands rest).refuse .illegalCmd)) ∨
    (∃ w rest i, s.commands = .command w :: rest ∧ decode w = .legal i ∧ step s = exec i (s.setCommands rest)) := by
  rcases h : s.commands with _ | ⟨w | _, rest⟩
  · exact .inl ⟨rfl, by simp [step, servePort, h, idle]⟩
  · rcases hd : decode w with i | why
    · exact .inr (.inr (.inr ⟨w, rest, i, rfl, hd, by simp [step, servePort, h, serveInput, serveCommand, hd]⟩))
    · exact .inr (.inr (.inl ⟨w, rest, why, rfl, hd, by simp [step, servePort, h, serveInput, serveCommand, hd]⟩))
  · exact .inr (.inl ⟨rest, rfl, by simp [step, servePort, h, serveInput, execReset]⟩)

end Sys2Proof.Machine
end

