-- ==== Sys2Proof/Laws/PerInstr.lean ====
section
/-! SUPPORT. A law of every command as syntax: its word is the row of opcode_table.json, `word & mask = match`. -/

namespace Sys2Proof.Laws.MatchMask

/-- The `mask` column of opcode_table.json (30_encoding.md R48). -/
def mask : Instr → CmdWord
  | .nop => 0xFFFF#16
  | .clr => 0xFFFF#16
  | .pushb _ => 0xFF00#16
  | .pushw _ _ => 0xF000#16
  | .popb => 0xFFFF#16
  | .popw => 0xFFFF#16
  | .enc => 0xFFFF#16
  | .dec => 0xFFFF#16

/-- The `match` column of opcode_table.json (30_encoding.md R48). -/
def matchBits : Instr → CmdWord
  | .nop => 0x0000#16
  | .clr => 0x1000#16
  | .pushb _ => 0x2000#16
  | .pushw _ _ => 0x3000#16
  | .popb => 0x4000#16
  | .popw => 0x5000#16
  | .enc => 0x6000#16
  | .dec => 0x7000#16

/-- The encoded word has the fixed bits of its row. -/
def Statement (i : Instr) : Prop := encode i &&& mask i = matchBits i

end Sys2Proof.Laws.MatchMask

namespace Sys2Proof.Laws

theorem MatchMask.nop : MatchMask.Statement .nop := by unfold MatchMask.Statement; decide
theorem MatchMask.clr : MatchMask.Statement .clr := by unfold MatchMask.Statement; decide
theorem MatchMask.pushb (imm8 : Byte) : MatchMask.Statement (.pushb imm8) := by
  revert imm8; unfold MatchMask.Statement; decide
theorem MatchMask.pushw (unk : Bool) (idx : Index) : MatchMask.Statement (.pushw unk idx) := by
  simp only [MatchMask.Statement, encode, MatchMask.mask, MatchMask.matchBits]
  refine BitVec.eq_of_getLsbD_eq fun j hj => ?_
  cases unk <;> interval_cases j <;> simp only [BitVec.getLsbD_and, BitVec.getLsbD_append] <;> simp
theorem MatchMask.popb : MatchMask.Statement .popb := by unfold MatchMask.Statement; decide
theorem MatchMask.popw : MatchMask.Statement .popw := by unfold MatchMask.Statement; decide
theorem MatchMask.enc : MatchMask.Statement .enc := by unfold MatchMask.Statement; decide
theorem MatchMask.dec : MatchMask.Statement .dec := by unfold MatchMask.Statement; decide

end Sys2Proof.Laws
end

