-- ==== Sys2Proof/Tests/Slice0.lean ====
section
/-! SUPPORT. The model's own tests. Expected values are those of spec/95_test_vectors.md (the vector's id stands in each
test's comment) or of the rule cited; and, for each statement with hypotheses, a witness that meets them. -/

namespace Sys2Proof.Tests

open Sys2Proof.Machine

/-- The entry with the 12 bits `v`. -/
def entryOf (v : Nat) : Entry := ⟨decide (2048 ≤ v), BitVec.ofNat 11 v⟩

/-- A block of capacity `g` with these queues, all registers 0. -/
def block (g : Nat) (bytes entries : List Nat) : State :=
  { State.resetOf g with bq := bytes.map (BitVec.ofNat 8), wq := entries.map entryOf }

/-- The next state, if there is one. -/
def nextOf (o : Host.Outcome State Fault Refusal) : Option State :=
  match o with
  | .next t => some t
  | _ => none

/-- The queues, the result registers and the last response of the next state. -/
structure Seen where
  bytes : List Nat
  entries : List Nat
  regs : List Nat
  rc : Nat
  rdata : Nat
deriving DecidableEq, Repr

/-- What a test looks at after a step. -/
def seen (o : Host.Outcome State Fault Refusal) : Option Seen :=
  match o with
  | .next t =>
    let r := t.responses.getLastD ⟨.ok, 0xFFF#12⟩
    some ⟨t.bq.map BitVec.toNat, t.wq.map (fun e => e.bits.toNat),
      [t.err.code.toNat, t.drop.toNat, t.csf.toNat, t.csc.toNat, t.epos], r.rc.code.toNat, r.rdata.toNat⟩
  | _ => none

/-! ### Decoding: words written out from R46 and R47, bit by bit -/

-- R46: op = 0b0000, arg = 0.
theorem test_decode_nop : decode 0b0000_000000000000#16 = .legal .nop := by decide
-- R46: op = 0b0001, arg = 0.
theorem test_decode_clr : decode 0b0001_000000000000#16 = .legal .clr := by decide
-- R46: op = 0b0010, four zero bits, imm8 = 0b10100101.
theorem test_decode_pushb : decode 0b0010_0000_10100101#16 = .legal (.pushb 0xA5#8) := by decide
-- R46: op = 0b0011, unk = 1, idx = 0b10000000001.
theorem test_decode_pushw : decode 0b0011_1_10000000001#16 = .legal (.pushw true 1025#11) := by decide
theorem test_decode_popb : decode 0b0100_000000000000#16 = .legal .popb := by decide
theorem test_decode_popw : decode 0b0101_000000000000#16 = .legal .popw := by decide
theorem test_decode_enc : decode 0b0110_000000000000#16 = .legal .enc := by decide
theorem test_decode_dec : decode 0b0111_000000000000#16 = .legal .dec := by decide
-- Q15 to Q20.
theorem test_decode_illegal :
    [0x8000#16, 0xFFFF#16, 0x0001#16, 0x1800#16, 0x2100#16, 0x4001#16, 0x5001#16, 0x6001#16, 0x7001#16].all
      (fun w => (decode w).instr?.isNone) = true := by decide
theorem test_table_word : decodeTableWord 16 0x3675 = some (.pushw false 1653#11) := by decide
theorem test_fetch_word : (nextOf (step (State.reset.withFetchWord 16 0x20C0))).map State.bq = some [0xC0#8] := by decide

/-! ### Commands -/

-- Q1.
theorem test_nop : seen (exec .nop (block 1 [] [])) = some ⟨[], [], [0, 0, 0, 0, 0], 0, 0⟩ := by decide
-- Q13.
theorem test_clr : seen (exec .clr { block 1 [1] [5] with
    err := .checksumMismatch, drop := 3, csf := 118, csc := 117 }) = some ⟨[], [], [0, 0, 0, 0, 0], 0, 0⟩ := by decide
-- Q3 and Q4.
theorem test_pushb : seen (exec (.pushb 0xFF) (block 1 [0] [])) = some ⟨[0, 0xFF], [], [0, 0, 0, 0, 0], 0, 0⟩ := by decide
theorem test_pushb_full :
    seen (exec (.pushb 5) (block 1 [1, 2, 3, 4] [])) = some ⟨[1, 2, 3, 4], [], [0, 0, 0, 0, 0], 2, 0⟩ := by decide
-- Q9 and Q10.
theorem test_pushw : seen (exec (.pushw true 2047) (block 1 [] [])) = some ⟨[], [0xFFF], [0, 0, 0, 0, 0], 0, 0⟩ := by decide
theorem test_pushw_full : seen (exec (.pushw false 7) (block 1 [] [8, 128, 1544, 10])) =
    some ⟨[], [8, 128, 1544, 10], [0, 0, 0, 0, 0], 2, 0⟩ := by decide
-- Q5 and Q6.
theorem test_popb : seen (exec .popb (block 1 [0xC0, 0xFF] [])) = some ⟨[0xFF], [], [0, 0, 0, 0, 0], 0, 0x0C0⟩ := by decide
theorem test_popb_empty : seen (exec .popb (block 1 [] [7])) = some ⟨[], [7], [0, 0, 0, 0, 0], 3, 0⟩ := by decide
-- Q11 and Q12.
theorem test_popw : seen (exec .popw (block 1 [] [0x800, 5])) = some ⟨[], [5], [0, 0, 0, 0, 0], 0, 0x800⟩ := by decide
theorem test_popw_empty : seen (exec .popw (block 1 [7] [])) = some ⟨[7], [], [0, 0, 0, 0, 0], 3, 0⟩ := by decide
-- EV14 (SPL S1) and Q23.
theorem test_enc : seen (exec .enc (block 2 [0xC0, 0xFF, 0xEE, 0xCA, 0xFE] [])) =
    some ⟨[], [1543, 2043, 1428, 2032, 0, 0, 1653], [0, 3, 117, 117, 0], 0, 0⟩ := by decide
theorem test_enc_replaces : seen (exec .enc (block 1 [1] [0x123])) =
    some ⟨[], [8, 0, 0, 1537], [0, 3, 1, 1, 0], 0, 0⟩ := by decide
-- Q22 and FV16 (SPL S3).
theorem test_dec : seen (exec .dec (block 1 [0x99] [8, 128, 1544, 10])) =
    some ⟨[1, 2, 3, 4], [], [0, 0, 10, 10, 0], 0, 0⟩ := by decide
theorem test_dec_mismatch : seen (exec .dec (block 2 [0x99] [1543, 2043, 1428, 2032, 0, 0, 1654])) =
    some ⟨[], [], [3, 3, 118, 117, 0], 4, 0⟩ := by decide
-- Q21: an illegal encoding is reported, not QUEUE_FULL.
theorem test_illegal_first : seen (step ((block 1 [1, 2, 3, 4] []).present (.command 0x2105))) =
    some ⟨[1, 2, 3, 4], [], [0, 0, 0, 0, 0], 1, 0⟩ := by decide
-- R170: reset gives no response.
theorem test_reset_input : nextOf (step ((block 1 [1] [2]).present .reset)) = some (State.resetOf 1) := by decide

/-! ### The unit functions -/

/-- `PACK4` on numbers. -/
def packNats (b0 b1 b2 b3 : Nat) : List Nat :=
  let w := pack4 (BitVec.ofNat 8 b0) (BitVec.ofNat 8 b1) (BitVec.ofNat 8 b2) (BitVec.ofNat 8 b3)
  [w.w0.toNat, w.w1.toNat, w.w2.toNat]

-- 95 section 2.1.
theorem test_pack4_mixed : packNats 0x12 0x34 0x56 0x78 = [145, 1301, 1264] := by decide
theorem test_pack4_ends : packNats 0x80 0 0 1 = [1024, 0, 2] := by decide
-- 95 section 2.2.
theorem test_unpack3_pad : unpack3 1543 2043 1429 = ⟨0xC0, 0xFF, 0xEE, 0xCA, 1⟩ := by decide
theorem test_unpack3_bits : unpack3 1 64 512 = ⟨0, 0x21, 1, 0, 0⟩ := by decide
-- 95 section 2.3.
theorem test_toBin : (toBin 117 9, toBin 4 2) = (some 0b001110101#9, none) := by decide
theorem test_groupBy : groupBy 4 [0xC0, 0xFF, 0xEE, 0xCA, 0xFE, 0, 0, 0] = some [[0xC0, 0xFF, 0xEE, 0xCA], [0xFE, 0, 0, 0]] := by
  decide
theorem test_splitEvery : splitEvery 11 0b11000000_11111111_11101110_11001010_0#33 = some [1543, 2043, 1428] := by decide
-- 95 section 3.
theorem test_dropCnt : [0, 1, 2, 3, 4, 255, 1023].map (fun n => (dropCnt n).toNat) = [0, 3, 2, 1, 0, 1, 1] := by decide
theorem test_csum : (csum [0xFF, 0xFF, 0x02], csum [0xC0, 0xFF, 0xEE, 0xCA, 0xFE]) = (0, 117) := by decide
theorem test_csumStep : (csumStep 511 1, csumStep 300 0xFF) = (0, 43) := by decide
theorem test_ckEnc : (ckEnc 3 117, ckEnc 1 6, ckEnc 3 511) = (1653, 518, 2047) := by decide
theorem test_ckDec : (ckDec 1654, ckDec 512) = ((3, 118), (1, 0)) := by decide

/-- `ENCODE` on numbers. -/
def encodeNats (b : List Nat) : List Nat := (encodeBytes (b.map (BitVec.ofNat 8))).map BitVec.toNat

-- EV1, EV4, EV5, EV9, EV13.
theorem test_encode_empty : encodeNats [] = [0] := by decide
theorem test_encode_two : encodeNats [0xFF, 0xFF] = [2047, 1984, 0, 1534] := by decide
theorem test_encode_three : encodeNats [0xFF, 0xFF, 0xFF] = [2047, 2047, 1536, 765] := by decide
theorem test_encode_nine :
    encodeNats (List.replicate 9 0xFF) = [2047, 2047, 2046, 2047, 2047, 2046, 2040, 0, 0, 1783] := by decide
theorem test_encode_six : encodeNats [1, 2, 3, 4, 5, 6] = [8, 128, 1544, 40, 384, 0, 1045] := by decide

/-- `ERR`, `DROP`, `CSF`, `CSC`, `EPOS` and the bytes that `DEC` leaves for these entries. -/
def decodeNats (w : List Nat) : Option (List Nat × List Nat) := (seen (exec .dec (block 3 [] w))).map fun o => (o.regs, o.bytes)

-- DV9 and DV7.
theorem test_decode_drops_more : decodeNats [8, 128, 1544, 518] = some ([0, 1, 6, 6, 0], [1, 2, 3]) := by decide
theorem test_decode_saturates : decodeNats [1536] = some ([0, 3, 0, 0, 0], []) := by decide
-- FV1, FV5, FV8, FV10, FV12, FV14, FV18.
theorem test_fail_empty : decodeNats [] = some ([1, 0, 0, 0, 0], []) := by decide
theorem test_fail_count : decodeNats [5, 6, 1546] = some ([1, 3, 10, 0, 0], []) := by decide
theorem test_fail_checkword : decodeNats [5, 6, 7, 0x80A] = some ([2, 0, 0, 0, 3], []) := by decide
theorem test_fail_first_unknown : decodeNats [0x800, 0x800, 7, 10] = some ([2, 0, 10, 0, 0], []) := by decide
theorem test_fail_priority : decodeNats [0x800, 6, 0x800] = some ([2, 0, 0, 0, 2], []) := by decide
theorem test_fail_one_word : decodeNats [513] = some ([3, 1, 1, 0, 0], []) := by decide
theorem test_fail_wrong_word : decodeNats [9, 128, 1544, 10] = some ([3, 0, 10, 42, 0], []) := by decide

/-! ### SPL's bit strings: both groups of SPL's vector -/

theorem test_spl_encode : splDataWords [0xC0, 0xFF, 0xEE, 0xCA, 0xFE, 0, 0, 0] = some [1543, 2043, 1428, 2032, 0, 0] := by decide
theorem test_spl_decode : splPaddedBytes [1543, 2043, 1428] = some [0xC0, 0xFF, 0xEE, 0xCA] := by decide

/-! ### Well-formedness: every check refuses an ill-formed line (R56), and the assembler with it -/

theorem test_wf_instr : [Instr.nop, .clr, .pushb 255, .pushw true 2047, .popb, .popw, .enc, .dec].all Instr.wf = true := by decide
theorem test_illformed_pushb : ((AsmLine.pushb 256).wf, (AsmLine.pushb 255).wf) = (false, true) := by decide
theorem test_illformed_pushw : ((AsmLine.pushw 2048).wf, (AsmLine.pushw 2047).wf) = (false, true) := by decide
theorem test_illformed_word : ((AsmLine.word 65536).wf, (AsmLine.word 65535).wf) = (false, true) := by decide
theorem test_illformed_pushwu : ((AsmLine.pushwu 2048).wf, (AsmLine.pushwu 2047).wf) = (false, true) := by decide
theorem test_illformed_pushbs : ((AsmLine.pushbs [1, 256]).wf, (AsmLine.pushbs []).wf) = (false, false) := by decide
theorem test_illformed_pushws : ((AsmLine.pushws [2048]).wf, (AsmLine.pushws []).wf) = (false, false) := by decide
theorem test_assemble_out_of_range : assemble (.pushb 256) = none := by decide
-- R57 and PR1 line 1, as text.
theorem test_text_pushb : assembleLine ['P', 'U', 'S', 'H', 'B', ' ', '0', 'x', 'C', '0'] = some [0x20C0#16] := by decide
theorem test_text_list : assembleLine ['P', 'U', 'S', 'H', 'W', 'S', ' ', '0', 'b', '1', ',', ' ', '8', ' ', ';', 'x'] =
    some [0x3001#16, 0x3008#16] := by decide
theorem test_text_pushwu : assembleLine ['P', 'U', 'S', 'H', 'W', 'U'] = some [0x3800#16] := by decide
theorem test_text_comment : assembleLine [' ', ';', 'E', 'N', 'C'] = some [] := by decide
theorem test_text_error : assembleLine ['P', 'U', 'S', 'H', 'B', ' ', '2', '5', '6'] = none := by decide

/-! ### Witnesses: for each statement with hypotheses, concrete values that meet them, one for each clause -/

theorem witness_DecodeEncodeRoundTrip : (Instr.pushw true 2047).wf = true := by decide
theorem witness_LegalWordIsItsCommandsEncoding : decode 0x3FFF#16 = .legal (.pushw true 2047) := by decide
theorem witness_MatchMaskPairsDecideDecoding :
    0x0000#16 &&& 0xFFFF#16 = 0x0000#16 ∧ 0x1000#16 &&& 0xFFFF#16 = 0x1000#16 ∧ 0x20FF#16 &&& 0xFF00#16 = 0x2000#16 ∧
    0x3FFF#16 &&& 0xF000#16 = 0x3000#16 ∧ 0x4000#16 &&& 0xFFFF#16 = 0x4000#16 ∧ 0x5000#16 &&& 0xFFFF#16 = 0x5000#16 ∧
    0x6000#16 &&& 0xFFFF#16 = 0x6000#16 ∧ 0x7000#16 &&& 0xFFFF#16 = 0x7000#16 ∧
    (0x2100#16 &&& 0xFFFF#16 ∉ [0x0000#16, 0x1000#16, 0x4000#16, 0x5000#16, 0x6000#16, 0x7000#16] ∧
      0x2100#16 &&& 0xFF00#16 ≠ 0x2000#16 ∧ 0x2100#16 &&& 0xF000#16 ≠ 0x3000#16) := by decide
theorem witness_StepRunsTheDecodedCommand : decode 0x7000#16 = .legal .dec := by decide
theorem witness_IllegalWordIsRefusedUnchanged :
    8#4 ≤ (0x8000#16).extractLsb 15 12 ∧
    ((0x7FFF#16).extractLsb 15 12 ∈ [0#4, 1#4, 4#4, 5#4, 6#4, 7#4] ∧ (0x7FFF#16).extractLsb 11 0 ≠ 0#12) ∧
    ((0x2100#16).extractLsb 15 12 = 2#4 ∧ (0x2100#16).extractLsb 11 8 ≠ 0#4) := by decide
theorem witness_IdleStepChangesNothing : (block 1 [1] [2]).commands = [] := by decide
theorem witness_StepKeepsTheModelsOwnFields : step (block 1 [1] []) = .next (block 1 [1] []) := by rfl
theorem witness_OnlyEncDecClrAndResetWriteResultRegisters :
    step { block 1 [] [] with commands := [.command 0x7000] } =
      .next { block 1 [] [] with err := .malformedInput, responses := [⟨.opFailed, 0⟩] } := by rfl
theorem witness_PushbAppendsOrIsRefused :
    (block 1 [1, 2, 3] []).bq.length ≠ 4 * (block 1 [1, 2, 3] []).gmax ∧
    (block 1 [1, 2, 3, 4] []).bq.length = 4 * (block 1 [1, 2, 3, 4] []).gmax ∧
    (0x2100#16).extractLsb 15 12 = 2#4 ∧ (0x2100#16).extractLsb 11 8 ≠ 0#4 := by decide
theorem witness_PushwAppendsOrIsRefused :
    (block 1 [] [1, 2, 3]).wq.length ≠ 3 * (block 1 [] [1, 2, 3]).gmax + 1 ∧
    (block 1 [] [1, 2, 3, 4]).wq.length = 3 * (block 1 [] [1, 2, 3, 4]).gmax + 1 := by decide
theorem witness_PopbTakesTheHeadOrIsRefused :
    (block 1 [7, 8] []).bq = 7#8 :: [8#8] ∧ (block 1 [] []).bq = [] := by decide
theorem witness_PopwTakesTheHeadOrIsRefused :
    (block 1 [] [0x805, 8]).wq = ⟨true, 5#11⟩ :: [⟨false, 8#11⟩] ∧ (block 1 [] []).wq = [] := by decide
theorem witness_PushedBytesStandInOrder :
    (block 1 [9] []).bq.length + [1#8, 2#8, 3#8].length ≤ 4 * (block 1 [9] []).gmax := by decide
theorem witness_PoppedEntriesComeInOrder : (block 1 [] [1, 2, 3]).wq = [entryOf 1, entryOf 2] ++ [entryOf 3] := by decide
theorem witness_CommandsGiveExactlyTheListedCodes :
    (∃ t, exec .popw (block 1 [] [5]) = .next t) ∧ (∃ why, decode 0x8000#16 = .illegal why) ∧
    ∃ t, step { block 1 [] [] with commands := [.command 0x8000] } = .next t := ⟨⟨_, rfl⟩, ⟨_, rfl⟩, ⟨_, rfl⟩⟩
theorem witness_RdataIsZeroUnlessAPopSucceeds :
    step { block 1 [7] [] with commands := [.command 0x4000] } = .next { block 1 [] [] with responses := [⟨.ok, 7⟩] } ∧
    (7#12) ≠ 0#12 := ⟨rfl, by decide⟩
theorem witness_RefusalsHaveTheirCausesAndChangeNothing :
    step { block 1 [1, 2, 3, 4] [] with commands := [.command 0x2005] } =
      .next { block 1 [1, 2, 3, 4] [] with responses := [⟨.queueFull, 0⟩] } ∧
    step { block 1 [] [] with commands := [.command 0x5000] } =
      .next { block 1 [] [] with responses := [⟨.queueEmpty, 0⟩] } ∧
    step { block 1 [] [] with commands := [.command 0x8000] } =
      .next { block 1 [] [] with responses := [⟨.illegalCmd, 0⟩] } := ⟨rfl, rfl, rfl⟩
theorem witness_Pack4AfterUnpack3ClearsThePadBit : pack4 1 2 3 4 = pack4 1 2 3 4 := rfl
theorem witness_DecoderRegroupsAsSplsBitStrings : [1#11, 2#11, 3#11].length % 3 = 0 := by decide
theorem witness_DropCountCompletesTheLastGroup : 5 ≤ 8 ∧ 8 % 4 = 0 := by decide
theorem witness_ChecksumLaws : [1#8, 2#8].Perm [2#8, 1#8] ∧ [1#8, 2#8][1]? = some 2#8 ∧ 3#8 ≠ 2#8 := by decide
theorem witness_EncodePacksGroupsThenTheCheckWord :
    let p := [1#8] ++ List.replicate ((4 - [1#8].length % 4) % 4) 0#8
    p[4 * 0]? = some 1#8 ∧ p[4 * 0 + 1]? = some 0#8 ∧ p[4 * 0 + 2]? = some 0#8 ∧ p[4 * 0 + 3]? = some 0#8 := by decide
theorem witness_EncoderOutputShowsItsPadding :
    (0 < ([1#8].length + 3) / 4 ∧ (encodeBytes [1#8])[3 * 0 + 2]? = some 0#11) ∧
    ([1#8] = [] ++ [1#8] ∧ [1#8].length % 4 = 1) ∧ [1#8, 2#8].length % 4 = 2 ∧ [1#8, 2#8, 3#8].length % 4 = 3 := by decide
theorem witness_EncodeIsInjective : encodeBytes [1#8] = encodeBytes [1#8] := rfl
theorem witness_EmptyInputEncodesToOneZeroWord : (block 1 [] [5]).bq = [] := by decide
theorem witness_DecOutcomeTable_empty : (block 1 [] []).wq = [] := by decide
theorem witness_DecOutcomeTable_checkword :
    (block 1 [] [5, 0x805]).wq = [entryOf 5] ++ [entryOf 0x805] ∧ (entryOf 0x805).unk = true := by decide
theorem witness_DecOutcomeTable_dataword :
    (block 1 [] [5, 0x800, 10]).wq = [entryOf 5, entryOf 0x800] ++ [entryOf 10] ∧ (entryOf 10).unk = false ∧
    [entryOf 5, entryOf 0x800] = [entryOf 5] ++ entryOf 0x800 :: [] ∧ (∀ k ∈ [entryOf 5], k.unk = false) ∧
    (entryOf 0x800).unk = true := by decide
theorem witness_DecOutcomeTable_count :
    (∀ e ∈ [entryOf 5], e.unk = false) ∧ [entryOf 5].length % 3 ≠ 0 := by decide
theorem witness_DecOutcomeTable_verify :
    (∀ e ∈ [entryOf 8, entryOf 128, entryOf 1544], e.unk = false) ∧ [entryOf 8, entryOf 128, entryOf 1544].length % 3 = 0 ∧
    csum [1#8, 2#8, 3#8, 4#8] = (ckDec 10#11).2 ∧ csum [1#8, 2#8, 3#8, 4#8] ≠ (ckDec 11#11).2 ∧
    (unpackGroups [8#11, 128#11, 1544#11]).take (4 * (3 / 3) - (ckDec 10#11).1.toNat) = [1#8, 2#8, 3#8, 4#8] := by decide
theorem witness_FailingDecTakesTheError :
    decodeWords (block 1 [] [5, 10]).wq = ⟨.fail .malformedInput, ⟨0, 10, 0, 0⟩⟩ ∧
    decodeWords (block 1 [] [0x800]).wq = ⟨.fail .unknownWord, ⟨0, 0, 0, 0⟩⟩ ∧
    decodeWords (block 1 [] [1]).wq = ⟨.fail .checksumMismatch, ⟨0, 1, 0, 0⟩⟩ := by decide
theorem witness_UnpackGroupsTakesWordsThreeAtATime :
    [1#11, 2#11, 3#11][3 * 0]? = some 1#11 ∧ [1#11, 2#11, 3#11][3 * 0 + 1]? = some 2#11 ∧
    [1#11, 2#11, 3#11][3 * 0 + 2]? = some 3#11 := by decide
theorem witness_NonCanonicalSequencesAreAccepted_padBit :
    0 < ([1#8].length + 3) / 4 ∧ (encodeBytes [1#8])[3 * 0 + 2]? = some 0#11 ∧
    [8#11, 0#11, 1#11, 1537#11] = (encodeBytes [1#8]).set (3 * 0 + 2) (0#11 ^^^ 1#11) := by decide
theorem witness_NonCanonicalSequencesAreAccepted_droppedBytes :
    [1#8, 2#8, 3#8, 4#8].length % 4 = 0 ∧ (∃ x ∈ [1#8, 2#8, 3#8, 4#8].drop (4 - (1#2).toNat), x ≠ 0#8) ∧
    [8#11, 128#11, 1544#11, 518#11] =
      packGroups [1#8, 2#8, 3#8, 4#8] ++ [ckEnc 1#2 (csum ([1#8, 2#8, 3#8, 4#8].take (4 - (1#2).toNat)))] := by decide
theorem witness_NonCanonicalSequencesAreAccepted_dropField :
    (0#2).toNat < (dropCnt [5#8].length).toNat ∧
    [40#11, 0#11, 0#11, 5#11] = packGroups (padBytes [5#8]) ++ [ckEnc 0#2 (csum [5#8])] := by decide
theorem witness_NonCanonicalSequencesAreAccepted_loneCheckWord : 1#2 ≠ 0#2 := by decide
theorem witness_PadBitsNeverMatter : [entryOf 1, entryOf 2, entryOf 3][3 * 0 + 2]? = some (entryOf 3) := by decide
theorem witness_ChecksumFieldChangeIsDetected : (2#2).toNat ≤ (dropCnt [7#8].length).toNat ∧ 8#9 ≠ csum [7#8] := by decide
theorem witness_ResultLengthFixesGroupsAndDropCount :
    decodeWords ([8, 128, 1544, 10].map entryOf) = ⟨.ok [1, 2, 3, 4], ⟨0, 10, 10, 0⟩⟩ ∧ 1 ≤ 4 := by decide
theorem witness_ResultsAlwaysFit :
    [1#8, 2#8, 3#8, 4#8].length ≤ 4 * 1 ∧ ([8, 128, 1544, 10].map entryOf).length ≤ 3 * 1 + 1 ∧
    decodeWords ([8, 128, 1544, 10].map entryOf) = ⟨.ok [1, 2, 3, 4], ⟨0, 10, 10, 0⟩⟩ := by decide
theorem witness_EncAndDecForgetHistory :
    (block 1 [1] [2]).bq = (block 2 [1] []).bq ∧ (block 1 [1] [2]).wq = (block 2 [] [2]).wq := by decide
theorem witness_NoCommandReadsAResultRegister :
    exec .nop (block 1 [] []) = .next { block 1 [] [] with responses := [⟨.ok, 0⟩] } := rfl
theorem witness_ResetMeetsTheInvariants : 1 ≤ (State.resetOf 1).gmax := by decide
theorem witness_StepKeepsTheInvariants :
    (block 1 [1, 2, 3, 4] [1, 2, 3, 4]).Inv ∧ step (block 1 [1, 2, 3, 4] [1, 2, 3, 4]) = .next (block 1 [1, 2, 3, 4] [1, 2, 3, 4]) :=
  ⟨⟨by decide, by decide, by decide, by decide, by decide⟩, rfl⟩
theorem witness_ReachableStatesMeetTheInvariants :
    Reachable { State.resetOf 1 with err := .malformedInput, responses := [⟨.opFailed, 0⟩] } :=
  .step (.start 1 [.command 0x7000] (by decide)) rfl
theorem witness_ReachableStatesMeetTheInvariants_failing :
    exec .dec (State.resetOf 1) = .next { State.resetOf 1 with err := .malformedInput, responses := [⟨.opFailed, 0⟩] } := rfl
theorem witness_EncodeTransactionReturnsTheWords : [1#8, 2#8, 3#8, 4#8].length ≤ 4 * (block 1 [] []).gmax := by decide
theorem witness_DecodeTransactionReturnsTheBytes :
    ([8, 128, 1544, 10].map entryOf).length ≤ 3 * (block 1 [] []).gmax + 1 ∧
    decodeWords ([8, 128, 1544, 10].map entryOf) = ⟨.ok [1, 2, 3, 4], ⟨0, 10, 10, 0⟩⟩ ∧
    decodeWords ([5, 10].map entryOf) = ⟨.fail .malformedInput, ⟨0, 10, 0, 0⟩⟩ := by decide
theorem witness_PseudoInstructionsExpand :
    2047 ≤ 2047 ∧ ([255] : List Nat) ≠ [] ∧ (∀ b ∈ [255], b ≤ 255) ∧ ([2047] : List Nat) ≠ [] ∧ ∀ i ∈ [2047], i ≤ 2047 := by
  decide

end Sys2Proof.Tests
end

/-! ## Encoding: illegal words are refused, pseudo-instructions expand (30_encoding.md R49, R57) -/

namespace Sys2Proof

/-- The must-be-zero bits of `PUSHB` are `cmd[11:8]`, whether read from the word or from its `arg` field (R45, R47). -/
theorem extractLsb_argField (w : CmdWord) : (argField w).extractLsb 11 8 = w.extractLsb 11 8 :=
  BitVec.eq_of_toNat_eq (by simp only [argField, toNat_slice]; omega)

/-- The first class of R49. -/
theorem decode_of_reserved {w : CmdWord} (h : 8#4 ≤ opField w) :
    decode w = .illegal (.reservedOpcode (opField w)) := by
  have defined_ne (k : BitVec 4) (hk : k < 8#4) : opField w ≠ k := by
    rintro rfl
    exact BitVec.not_lt.2 h hk
  simp [decode, defined_ne]

/-- The second class of R49, for the six commands without operand. -/
theorem decode_of_arg_ne_zero {w : CmdWord} (hop : opField w ∈ [0#4, 1#4, 4#4, 5#4, 6#4, 7#4])
    (harg : argField w ≠ 0#12) : decode w = .illegal (.mustBeZero (opField w) (argField w)) := by
  simp only [List.mem_cons, List.not_mem_nil, or_false] at hop
  rcases hop with hop | hop | hop | hop | hop | hop <;> simp [decode, withoutOperand, hop, harg]

/-- The second class of R49, for `PUSHB`. -/
theorem decode_of_pushb_high_ne_zero {w : CmdWord} (hop : opField w = 2#4) (hhigh : w.extractLsb 11 8 ≠ 0#4) :
    decode w = .illegal (.mustBeZero (opField w) (argField w)) := by
  rw [← extractLsb_argField] at hhigh
  simp [decode, hop, hhigh]

/-- The word of `PUSHB` as the sum of R130. -/
theorem encode_pushb_toNat (b : Byte) : (encode (.pushb b)).toNat = 0x2000 + b.toNat := by
  simp only [encode, toNat_concat, BitVec.toNat_ofNat]
  omega

/-- The word of `PUSHW` as the sum of R131, the flag with its weight of bit 11. -/
theorem encode_pushw_toNat (unk : Bool) (idx : Index) :
    (encode (.pushw unk idx)).toNat = 0x3000 + 0x800 * unk.toNat + idx.toNat := by
  simp only [encode, toNat_concat, BitVec.toNat_ofNat, BitVec.toNat_ofBool]
  omega

end Sys2Proof

namespace Sys2Proof.Machine

/-! ### The port serves every word -/

/-- A step that finds a command word serves it on the state past that word. -/
theorem step_command (s : State) (w : CmdWord) (rest : List PortInput) :
    step { s with commands := .command w :: rest } = serveCommand w { s with commands := rest } := rfl

theorem serveCommand_of_legal {w : CmdWord} {i : Instr} (h : decode w = .legal i) (s : State) :
    serveCommand w s = exec i s := by
  simp [serveCommand, h]

theorem serveCommand_of_illegal {w : CmdWord} {why : IllegalCmd} (h : decode w = .illegal why) (s : State) :
    serveCommand w s = .next (s.refuse .illegalCmd) := by
  simp [serveCommand, h]

/-- Every command completes in every state (R153). -/
theorem exec_total (i : Instr) (s : State) : ∃ t, exec i s = .next t := by
  cases i with
  | nop => exact ⟨_, rfl⟩
  | clr => exact ⟨_, rfl⟩
  | pushb imm8 =>
    obtain ⟨-, h⟩ | ⟨-, h⟩ := execPushb_cases imm8 s
    · exact ⟨_, h⟩
    · exact ⟨_, h⟩
  | pushw unk idx =>
    obtain ⟨-, h⟩ | ⟨-, h⟩ := execPushw_cases unk idx s
    · exact ⟨_, h⟩
    · exact ⟨_, h⟩
  | popb =>
    obtain ⟨-, h⟩ | ⟨_, _, -, h⟩ := execPopb_cases s
    · exact ⟨_, h⟩
    · exact ⟨_, h⟩
  | popw =>
    obtain ⟨-, h⟩ | ⟨_, _, -, h⟩ := execPopw_cases s
    · exact ⟨_, h⟩
    · exact ⟨_, h⟩
  | enc => exact ⟨_, rfl⟩
  | dec =>
    obtain ⟨_, _, -, h⟩ | ⟨_, _, -, h⟩ := execDec_cases s
    · exact ⟨_, h⟩
    · exact ⟨_, h⟩

/-- Every one of the 65536 words has a defined effect in every state (R49). -/
theorem serveCommand_total (w : CmdWord) (s : State) : ∃ t, serveCommand w s = .next t := by
  rcases h : decode w with i | why
  · simpa only [serveCommand_of_legal h] using exec_total i s
  · exact ⟨_, serveCommand_of_illegal h s⟩

/-! ### The assembler's words -/

theorem assemble_of_wf {line : AsmLine} (h : line.wf = true) : assemble line = some (expand line) := if_pos h

/-- R56: `PUSHB imm8` is `0x2000 + imm8`. -/
theorem asmPushb_eq {b : Nat} (h : b ≤ 255) : asmPushb b = BitVec.ofNat 16 (0x2000 + b) := by
  apply BitVec.eq_of_toNat_eq
  simp only [asmPushb, encode_pushb_toNat, BitVec.toNat_ofNat]
  omega

/-- `PUSHW idx` (R56) and `PUSHWU idx` (R57) are `0x3000 + idx` and `0x3800 + idx`. -/
theorem asmPushw_eq (unk : Bool) {idx : Nat} (h : idx ≤ 2047) :
    asmPushw unk idx = BitVec.ofNat 16 (bif unk then 0x3800 + idx else 0x3000 + idx) := by
  apply BitVec.eq_of_toNat_eq
  simp only [asmPushw, encode_pushw_toNat, BitVec.toNat_ofNat]
  cases unk <;> simp only [cond_true, cond_false, Bool.toNat_true, Bool.toNat_false] <;> omega

theorem assemble_pushwu {idx : Nat} (h : idx ≤ 2047) :
    assemble (.pushwu idx) = some [BitVec.ofNat 16 (0x3800 + idx)] := by
  rw [assemble_of_wf (by simpa [AsmLine.wf] using h), expand, asmPushw_eq true h, cond_true]

theorem assemble_pushbs {bytes : List Nat} (hne : bytes ≠ []) (h : ∀ b ∈ bytes, b ≤ 255) :
    assemble (.pushbs bytes) = some (bytes.map fun b => BitVec.ofNat 16 (0x2000 + b)) := by
  rw [assemble_of_wf (by simpa [AsmLine.wf, hne] using h), expand]
  exact congrArg some (List.map_congr_left fun b hb => asmPushb_eq (h b hb))

theorem assemble_pushws {indices : List Nat} (hne : indices ≠ []) (h : ∀ i ∈ indices, i ≤ 2047) :
    assemble (.pushws indices) = some (indices.map fun i => BitVec.ofNat 16 (0x3000 + i)) := by
  rw [assemble_of_wf (by simpa [AsmLine.wf, hne] using h), expand]
  exact congrArg some (List.map_congr_left fun i hi => asmPushw_eq false (h i hi))

/-! ### The statements -/

/-- Settles O7: each class of R49 makes the decoder answer `illegal`, and the port then only adds the refusal; a word of
neither class runs a command, and every command completes. -/
theorem illegalWordIsRefusedUnchanged : Obligations.IllegalWordIsRefusedUnchanged := by
  intro s w rest
  rw [step_command]
  refine ⟨fun hw => ?_, serveCommand_total w _⟩
  have ⟨_, hillegal⟩ : ∃ why, decode w = .illegal why := by
    obtain hop | ⟨hop, harg⟩ | ⟨hop, hhigh⟩ := hw
    · exact ⟨_, decode_of_reserved hop⟩
    · exact ⟨_, decode_of_arg_ne_zero hop harg⟩
    · exact ⟨_, decode_of_pushb_high_ne_zero hop hhigh⟩
  exact serveCommand_of_illegal hillegal _

/-- Settles O58: an operand in range makes the line well formed, and its words are then the sums of R56 and R57, element by
element for the list forms. -/
theorem pseudoInstructionsExpand : Obligations.PseudoInstructionsExpand :=
  ⟨assemble_pushwu (Nat.zero_le _), fun _ => assemble_pushwu, fun _ => assemble_pushbs, fun _ => assemble_pushws,
    fun _ => ⟨assemble_of_wf rfl, assemble_of_wf rfl⟩⟩

end Sys2Proof.Machine

/-! ## The bit-packer: groups and slices as arithmetic (40_bit_grouping.md R68, R69) -/

namespace Sys2Proof.Machine

/-- The group of R68: `b0 ∥ b1 ∥ b2 ∥ b3 ∥ 0`, each byte with the weight of its place. -/
theorem bytesGroup_toNat (b0 b1 b2 b3 : Byte) :
    (bytesGroup b0 b1 b2 b3).toNat = b0.toNat * 2 ^ 25 + b1.toNat * 2 ^ 17 + b2.toNat * 2 ^ 9 + b3.toNat * 2 := by
  simp only [bytesGroup, toNat_concat, BitVec.toNat_ofNat]
  omega

/-- The group of R69: `w0 ∥ w1 ∥ w2`, each index with the weight of its place. -/
theorem wordsGroup_toNat (w0 w1 w2 : Index) :
    (wordsGroup w0 w1 w2).toNat = w0.toNat * 2 ^ 22 + w1.toNat * 2 ^ 11 + w2.toNat := by
  simp only [wordsGroup, toNat_concat]
  omega

/-! ### `PACK4` -/

section
variable (b0 b1 b2 b3 : Byte)

theorem pack4_w0_toNat : (pack4 b0 b1 b2 b3).w0.toNat = b0.toNat * 8 + b1.toNat / 32 := by
  simp only [pack4, toNat_slice, bytesGroup_toNat]
  omega

theorem pack4_w1_toNat : (pack4 b0 b1 b2 b3).w1.toNat = b1.toNat % 32 * 64 + b2.toNat / 4 := by
  simp only [pack4, toNat_slice, bytesGroup_toNat]
  omega

theorem pack4_w2_toNat : (pack4 b0 b1 b2 b3).w2.toNat = b2.toNat % 4 * 512 + b3.toNat * 2 := by
  simp only [pack4, toNat_slice, bytesGroup_toNat]
  omega

/-- The appended `0` is the last bit of `w2`. -/
theorem pack4_w2_even : (pack4 b0 b1 b2 b3).w2.toNat % 2 = 0 := by
  rw [pack4_w2_toNat]
  omega

end

/-! ### `UNPACK3` -/

section
variable (w0 w1 w2 : Index)

theorem unpack3_b0_toNat : (unpack3 w0 w1 w2).b0.toNat = w0.toNat / 8 := by
  simp only [unpack3, toNat_slice, wordsGroup_toNat]
  omega

theorem unpack3_b1_toNat : (unpack3 w0 w1 w2).b1.toNat = w0.toNat % 8 * 32 + w1.toNat / 64 := by
  simp only [unpack3, toNat_slice, wordsGroup_toNat]
  omega

theorem unpack3_b2_toNat : (unpack3 w0 w1 w2).b2.toNat = w1.toNat % 64 * 4 + w2.toNat / 512 := by
  simp only [unpack3, toNat_slice, wordsGroup_toNat]
  omega

theorem unpack3_b3_toNat : (unpack3 w0 w1 w2).b3.toNat = w2.toNat % 512 / 2 := by
  simp only [unpack3, toNat_slice, wordsGroup_toNat]
  omega

theorem unpack3_pad_toNat : (unpack3 w0 w1 w2).pad.toNat = w2.toNat % 2 := by
  simp only [unpack3, toNat_slice, wordsGroup_toNat]
  omega

/-- The last bit of `w2` is the last bit of the group. -/
theorem wordsGroup_xor_one : wordsGroup w0 w1 (w2 ^^^ 1#11) = wordsGroup w0 w1 w2 ^^^ 1#33 := by
  have split_at_w2 : (w0 ++ w1 ++ w2) ^^^ (0#22 ++ 1#11) = ((w0 ++ w1) ^^^ 0#22) ++ (w2 ^^^ 1#11) := BitVec.xor_append
  rw [BitVec.xor_zero] at split_at_w2
  exact split_at_w2.symm

/-- The bytes are slices of the group above its bit 0, so they do not see the pad bit. -/
theorem unpack3_xor_one :
    unpack3 w0 w1 (w2 ^^^ 1#11) = { unpack3 w0 w1 w2 with pad := (unpack3 w0 w1 w2).pad ^^^ 1#1 } := by
  have above {hi lo : Nat} (h : (1#33).extractLsb hi lo = 0#(hi - lo + 1)) :
      (wordsGroup w0 w1 w2 ^^^ 1#33).extractLsb hi lo = (wordsGroup w0 w1 w2).extractLsb hi lo := by
    rw [BitVec.extractLsb_xor, h, BitVec.xor_zero]
  simp only [unpack3, wordsGroup_xor_one, Bytes4.mk.injEq]
  exact ⟨above rfl, above rfl, above rfl, above rfl, BitVec.extractLsb_xor ..⟩

end

/-! ### The statements -/

/-- Settles O26: each index is a slice of the group of R68, whose value is known. -/
theorem pack4SlicesTheGroup : Obligations.Pack4SlicesTheGroup := fun b0 b1 b2 b3 =>
  ⟨bytesGroup_toNat b0 b1 b2 b3, pack4_w0_toNat b0 b1 b2 b3, pack4_w1_toNat b0 b1 b2 b3, pack4_w2_toNat b0 b1 b2 b3,
    pack4_w2_even b0 b1 b2 b3⟩

/-- Settles O27: each byte and the pad bit is a slice of the group of R69, and flipping `w2[0]` flips bit 0 of the group,
which only the pad bit reads. -/
theorem unpack3SlicesTheGroup : Obligations.Unpack3SlicesTheGroup := fun w0 w1 w2 =>
  ⟨wordsGroup_toNat w0 w1 w2, unpack3_b0_toNat w0 w1 w2, unpack3_b1_toNat w0 w1 w2, unpack3_b2_toNat w0 w1 w2,
    unpack3_b3_toNat w0 w1 w2, unpack3_pad_toNat w0 w1 w2, unpack3_xor_one w0 w1 w2⟩

end Sys2Proof.Machine

/-! ## The encoder: `ENCODE` and `ENC` (42_encoder.md R95, R96, R102, R103) -/

namespace Sys2Proof.Machine

/-! ### The padding -/

/-- The formula of R82 fits the two bits of a drop count. -/
theorem dropCnt_toNat (n : Nat) : (dropCnt n).toNat = (4 - n % 4) % 4 := by
  rw [dropCnt, BitVec.toNat_ofNat]
  omega

/-- The padded sequence as R102 describes it: on the right, as many zero bytes as the last group lacks. -/
theorem padBytes_eq (b : List Byte) : padBytes b = b ++ List.replicate ((4 - b.length % 4) % 4) 0#8 := by
  rw [padBytes, dropCnt_toNat]

theorem padBytes_length (b : List Byte) : (padBytes b).length = 4 * ((b.length + 3) / 4) := by
  rw [padBytes_eq, List.length_append, List.length_replicate]
  omega

/-! ### The data words -/

/-- Three words for each full group of four bytes. -/
theorem packGroups_length : ∀ p : List Byte, (packGroups p).length = 3 * (p.length / 4)
  | [] | [_] | [_, _] | [_, _, _] => by simp [packGroups]
  | _ :: _ :: _ :: _ :: rest => by
    simp only [packGroups, List.length_cons, packGroups_length rest]
    omega

theorem packGroups_padBytes_length (b : List Byte) :
    (packGroups (padBytes b)).length = 3 * ((b.length + 3) / 4) := by
  rw [packGroups_length, padBytes_length, Nat.mul_div_cancel_left _ (by decide)]

/-- Group `k` of the bytes gives the words `3k .. 3k+2`, in order (R96 steps 4 and 5). Each step of the induction takes off
the first group; a sequence without a full first group has no element at the last of the four positions. -/
theorem packGroups_getElem? {p : List Byte} {k : Nat} {b0 b1 b2 b3 : Byte} (h0 : p[4 * k]? = some b0)
    (h1 : p[4 * k + 1]? = some b1) (h2 : p[4 * k + 2]? = some b2) (h3 : p[4 * k + 3]? = some b3) :
    (packGroups p)[3 * k]? = some (pack4 b0 b1 b2 b3).w0 ∧
    (packGroups p)[3 * k + 1]? = some (pack4 b0 b1 b2 b3).w1 ∧
    (packGroups p)[3 * k + 2]? = some (pack4 b0 b1 b2 b3).w2 := by
  induction k generalizing p with
  | zero =>
    match p with
    | c0 :: c1 :: c2 :: c3 :: rest =>
      obtain rfl : c0 = b0 := Option.some.inj h0
      obtain rfl : c1 = b1 := Option.some.inj h1
      obtain rfl : c2 = b2 := Option.some.inj h2
      obtain rfl : c3 = b3 := Option.some.inj h3
      exact ⟨rfl, rfl, rfl⟩
  | succ k ih =>
    match p with
    | _ :: _ :: _ :: _ :: rest => exact ih (p := rest) h0 h1 h2 h3

/-! ### `ENCODE` and `ENC` -/

theorem encodeBytes_nil : encodeBytes [] = [0#11] := rfl

theorem encodeBytes_length (b : List Byte) : (encodeBytes b).length = 3 * ((b.length + 3) / 4) + 1 := by
  rw [encodeBytes, List.length_append, packGroups_padBytes_length, List.length_singleton]

/-- Every data word stands in `ENCODE(b)` at its own place: the check-word comes after them (R96 step 6). -/
theorem encodeBytes_getElem?_of_packGroups {b : List Byte} {j : Nat} {w : Index}
    (h : (packGroups (padBytes b))[j]? = some w) : (encodeBytes b)[j]? = some w := by
  rw [encodeBytes, List.getElem?_append_left (List.getElem?_eq_some_iff.1 h).1, h]

/-! ### The statements -/

/-- Settles O38: `packGroups` gives three words for each full group, in order, and the padding makes every group full, so
that the check-word stands right after `3 * ceil(n/4)` data words. -/
theorem encodePacksGroupsThenTheCheckWord : Obligations.EncodePacksGroupsThenTheCheckWord := by
  intro b
  rw [← padBytes_eq]
  refine ⟨encodeBytes_length b, ?_, padBytes_length b, fun k b0 b1 b2 b3 h0 h1 h2 h3 => ?_⟩
  · rw [← packGroups_padBytes_length, encodeBytes, List.getElem?_concat_length, encodeCheckWord]
  · obtain ⟨hw0, hw1, hw2⟩ := packGroups_getElem? h0 h1 h2 h3
    exact ⟨encodeBytes_getElem?_of_packGroups hw0, encodeBytes_getElem?_of_packGroups hw1,
      encodeBytes_getElem?_of_packGroups hw2⟩

/-- Settles O37: `ENC` is one unconditional update of the state, so R99 needs no case. -/
theorem encReplacesWordQueueByTheEncoding : Obligations.EncReplacesWordQueueByTheEncoding :=
  ⟨fun _ => rfl, rfl⟩

/-- Settles O41: the state after `ENC` is that of O37, and the empty sequence has no group, drop count 0 and sum 0. -/
theorem emptyInputEncodesToOneZeroWord : Obligations.EmptyInputEncodesToOneZeroWord := by
  refine ⟨encodeBytes_nil, fun s hbq => ⟨_, encReplacesWordQueueByTheEncoding.1 s, ?_⟩⟩
  rw [hbq, encodeBytes_nil]
  exact ⟨rfl, rfl, rfl, rfl⟩

end Sys2Proof.Machine

/-! ## The decoder: the outcomes of `DECODE` and the state after `DEC` (43_decoder.md R111, R112) -/

namespace Sys2Proof.Machine

/-! ### The candidate bytes -/

/-- Four bytes for each full group of three words (R117). -/
theorem unpackGroups_length : ∀ ws : List Index, (unpackGroups ws).length = 4 * (ws.length / 3)
  | [] | [_] | [_, _] => by simp [unpackGroups]
  | _ :: _ :: _ :: rest => by
    simp only [unpackGroups, List.length_cons, unpackGroups_length rest]
    omega

/-- The truncation of R118, with the length of the unpacked bytes written out. -/
theorem candidate_eq (ws : List Index) (d : DropCount) :
    candidate ws d = (unpackGroups ws).take (4 * (ws.length / 3) - d.toNat) := by
  rw [candidate, unpackGroups_length]

/-! ### One lemma per outcome of `DECODE` -/

section
variable {data : List Entry} {ck : Entry}

/-- Step 2 fails (R114). -/
theorem decodeWords_of_unknown_check (hck : ck.unk = true) :
    decodeWords (data ++ [ck]) = ⟨.fail .unknownWord, ⟨0#2, 0#9, 0#9, data.length⟩⟩ := by
  rw [decodeWords_snoc, if_pos hck]

/-- Step 2 passes, and the fields of the check-word go into the later steps. -/
theorem decodeWords_of_known_check (hck : ck.unk = false) :
    decodeWords (data ++ [ck]) = decodeData data (ckDec ck.idx).1 (ckDec ck.idx).2 := by
  rw [decodeWords_snoc, if_neg (Bool.eq_false_iff.1 hck)]

/-- Step 3 fails at the first unknown data word (R115). -/
theorem decodeData_of_first_unknown {known left : List Entry} {e : Entry} (hknown : ∀ k ∈ known, k.unk = false)
    (he : e.unk = true) (d : DropCount) (c : Checksum) :
    decodeData (known ++ e :: left) d c = ⟨.fail .unknownWord, ⟨d, c, 0#9, known.length⟩⟩ := by
  have hpos : (known ++ e :: left).findIdx? Entry.unk = some known.length := by
    simp [List.findIdx?_append, List.findIdx?_eq_none_iff.2 hknown, List.findIdx?_cons, he]
  simp [decodeData, hpos]

/-- Step 4 fails (R116). -/
theorem decodeData_of_bad_count (hknown : ∀ e ∈ data, e.unk = false) (hcount : data.length % 3 ≠ 0)
    (d : DropCount) (c : Checksum) : decodeData data d c = ⟨.fail .malformedInput, ⟨d, c, 0#9, 0⟩⟩ := by
  rw [decodeData_known hknown, if_pos hcount]

/-- Steps 3 and 4 pass, and the candidate is verified. -/
theorem decodeData_of_full_groups (hknown : ∀ e ∈ data, e.unk = false) (hcount : data.length % 3 = 0)
    (d : DropCount) (c : Checksum) : decodeData data d c = verifyGroups (data.map Entry.idx) d c := by
  rw [decodeData_known hknown, if_neg (not_not_intro hcount)]

end

section
variable {ws : List Index} {d : DropCount} {c : Checksum}

/-- Step 7 fails (R119). -/
theorem verifyGroups_of_csum_ne (h : csum (candidate ws d) ≠ c) :
    verifyGroups ws d c = ⟨.fail .checksumMismatch, ⟨d, c, csum (candidate ws d), 0⟩⟩ := if_pos h

/-- Step 7 passes (R119). -/
theorem verifyGroups_of_csum_eq (h : csum (candidate ws d) = c) :
    verifyGroups ws d c = ⟨.ok (candidate ws d), ⟨d, c, c, 0⟩⟩ := by
  rw [verifyGroups, if_neg (not_not_intro h), h]

end

/-! ### `DEC` by the result of `DECODE` -/

section
variable {s : State} {r : ByProducts}

/-- A failing `DEC` takes the error (R110, R150). -/
theorem exec_dec_of_fail {kind : ErrorKind} (h : decodeWords s.wq = ⟨.fail kind, r⟩) :
    exec .dec s = .next { s with wq := [], bq := [], err := kind.toErr, drop := r.drop, csf := r.csf, csc := r.csc,
                                 epos := r.epos, responses := s.responses ++ [⟨.opFailed, 0#12⟩] } := by
  have hnext : execDec s = .next (s.raise kind r) := by simp only [execDec, h]
  exact hnext

/-- A successful `DEC` replaces `BQ` by the candidate bytes (R110). -/
theorem exec_dec_of_ok {cand : List Byte} (h : decodeWords s.wq = ⟨.ok cand, r⟩) :
    exec .dec s = .next { s with wq := [], bq := cand, err := .none, drop := r.drop, csf := r.csf, csc := r.csc,
                                 epos := r.epos, responses := s.responses ++ [⟨.ok, 0#12⟩] } := by
  have hnext : execDec s = .next ((((s.setWq []).setBq cand).setResults .none r).respond .ok 0#12) := by
    simp only [execDec, h]
  exact hnext

end

/-! ### The statement -/

/-- Settles O42: under the condition of each row of R112, `DECODE` of the word queue has that row's result and
by-products, and `DEC` copies them to the state. -/
theorem decOutcomeTable : Obligations.DecOutcomeTable := by
  refine fun s => ⟨fun hempty => exec_dec_of_fail (hempty ▸ decodeWords_nil), fun data ck hwq => ?_⟩
  refine ⟨fun hck => exec_dec_of_fail (hwq ▸ decodeWords_of_unknown_check hck), fun hck => ?_⟩
  have past_check : decodeWords s.wq = decodeData data (ckDec ck.idx).1 (ckDec ck.idx).2 :=
    hwq ▸ decodeWords_of_known_check hck
  refine ⟨fun known left e hdata hknown he => ?_, fun hknown => ⟨fun hcount => ?_, fun hcount cand hcand => ?_⟩⟩
  · exact exec_dec_of_fail (past_check.trans (hdata ▸ decodeData_of_first_unknown hknown he _ _))
  · exact exec_dec_of_fail (past_check.trans (decodeData_of_bad_count hknown hcount _ _))
  have past_count := past_check.trans (decodeData_of_full_groups hknown hcount _ _)
  obtain rfl : candidate (data.map Entry.idx) (ckDec ck.idx).1 = cand := by
    rw [hcand, candidate_eq, List.length_map]
  exact ⟨fun hne => exec_dec_of_fail (past_count.trans (verifyGroups_of_csum_ne hne)),
    fun heq => exec_dec_of_ok (past_count.trans (verifyGroups_of_csum_eq heq))⟩

end Sys2Proof.Machine

/-! ## Queue access and control (44_queue_and_control.md R130 to R136) -/

namespace Sys2Proof

/-- The opcode of a word put together from its two fields (R45). -/
theorem opField_append (op : BitVec 4) (arg : Word12) : opField (op ++ arg) = op :=
  BitVec.eq_of_toNat_eq (by simp only [opField, toNat_slice, toNat_concat]; omega)

/-- `PUSHW` has no must-be-zero bit (R47). -/
theorem decode_of_pushw {w : CmdWord} (hop : opField w = 3#4) :
    decode w = .legal (.pushw ((argField w).getLsbD 11) ((argField w).extractLsb 10 0)) := by
  simp [decode, hop]

/-- The word of `PUSHB` as the sum of R130, in the 16 bits of a command word. -/
theorem encode_pushb (b : Byte) : encode (.pushb b) = 0x2000#16 + b.setWidth 16 := by
  apply BitVec.eq_of_toNat_eq
  simp only [encode_pushb_toNat, BitVec.toNat_add, BitVec.toNat_setWidth, BitVec.toNat_ofNat]
  omega

end Sys2Proof

namespace Sys2Proof.Machine

/-! ### One lemma per outcome of a queue command -/

section
variable {s : State}

theorem exec_pushb_of_full (h : s.bq.length = s.bcap) (b : Byte) :
    exec (.pushb b) s = .next (s.refuse .queueFull) :=
  ((execPushb_cases b s).resolve_right fun ⟨hroom, _⟩ => hroom h).2

theorem exec_pushb_of_room (h : s.bq.length ≠ s.bcap) (b : Byte) :
    exec (.pushb b) s = .next ((s.setBq (s.bq ++ [b])).respond .ok 0#12) :=
  ((execPushb_cases b s).resolve_left fun ⟨hfull, _⟩ => h hfull).2

theorem exec_pushw_of_full (h : s.wq.length = s.wcap) (unk : Bool) (idx : Index) :
    exec (.pushw unk idx) s = .next (s.refuse .queueFull) :=
  ((execPushw_cases unk idx s).resolve_right fun ⟨hroom, _⟩ => hroom h).2

theorem exec_pushw_of_room (h : s.wq.length ≠ s.wcap) (unk : Bool) (idx : Index) :
    exec (.pushw unk idx) s = .next ((s.setWq (s.wq ++ [⟨unk, idx⟩])).respond .ok 0#12) :=
  ((execPushw_cases unk idx s).resolve_left fun ⟨hfull, _⟩ => h hfull).2

theorem exec_popb_of_nil (h : s.bq = []) : exec .popb s = .next (s.refuse .queueEmpty) := by
  simp [exec, execPopb, h]

theorem exec_popb_of_cons {v : Byte} {rest : List Byte} (h : s.bq = v :: rest) :
    exec .popb s = .next ((s.setBq rest).respond .ok (popbData v)) := by
  simp [exec, execPopb, h]

theorem exec_popw_of_nil (h : s.wq = []) : exec .popw s = .next (s.refuse .queueEmpty) := by
  simp [exec, execPopw, h]

theorem exec_popw_of_cons {v : Entry} {rest : List Entry} (h : s.wq = v :: rest) :
    exec .popw s = .next ((s.setWq rest).respond .ok (popwData v)) := by
  simp [exec, execPopw, h]

end

/-! ### The statements -/

/-- Settles O13: the two outcomes of `PUSHB` are told apart by `BLEN = BCAP`, and `cmd[11:8]` is the second class of
R49. -/
theorem pushbAppendsOrIsRefused : Obligations.PushbAppendsOrIsRefused :=
  ⟨fun imm8 _ => ⟨fun hroom => exec_pushb_of_room hroom imm8, fun hfull => exec_pushb_of_full hfull imm8, encode_pushb imm8⟩,
    fun _ hop hhigh => ⟨_, decode_of_pushb_high_ne_zero hop hhigh⟩⟩

/-- Settles O14: the two outcomes of `PUSHW` are told apart by `WLEN = WCAP`, and opcode `0x3` alone makes a word
legal. -/
theorem pushwAppendsOrIsRefused : Obligations.PushwAppendsOrIsRefused := by
  refine ⟨fun unk idx s => ⟨fun hroom => exec_pushw_of_room hroom unk idx, fun hfull => exec_pushw_of_full hfull unk idx, ?_⟩,
    fun arg => ⟨_, _, decode_of_pushw (opField_append 3#4 arg)⟩⟩
  rw [encode_pushw_toNat, Nat.mul_comm]

/-- Settles O15: `popbData` is the zero extension to 12 bits. -/
theorem popbTakesTheHeadOrIsRefused : Obligations.PopbTakesTheHeadOrIsRefused :=
  ⟨fun _ => ⟨fun _ _ => exec_popb_of_cons, exec_popb_of_nil⟩, rfl⟩

/-- Settles O16: `popwData` is the 12 bits `unk ∥ idx`. -/
theorem popwTakesTheHeadOrIsRefused : Obligations.PopwTakesTheHeadOrIsRefused :=
  ⟨fun _ => ⟨fun _ _ => exec_popw_of_cons, exec_popw_of_nil⟩, rfl⟩

/-- Settles O17: `NOP` is one unconditional response. -/
theorem nopOnlyResponds : Obligations.NopOnlyResponds :=
  ⟨fun _ => rfl, rfl⟩

/-- Settles O18: `CLR` is `clearBlock`, the effect of reset, and a response. -/
theorem clrClearsTheBlock : Obligations.ClrClearsTheBlock :=
  ⟨fun _ => rfl, rfl⟩

end Sys2Proof.Machine

/-! ## Exceptions: every command responds, refusals have their causes (60_exceptions.md R151, R153) -/

namespace Sys2Proof.Machine

/-- The code with which the block refuses a decoded word in a state (R151); none where the word is not refused. -/
def State.refusalOf (s : State) : Decoding → Option Rc
  | .illegal _ => some .illegalCmd
  | .legal (.pushb _) => if s.blen = s.bcap then some .queueFull else none
  | .legal (.pushw _ _) => if s.wlen = s.wcap then some .queueFull else none
  | .legal .popb => if s.blen = 0 then some .queueEmpty else none
  | .legal .popw => if s.wlen = 0 then some .queueEmpty else none
  | .legal .nop => none
  | .legal .clr => none
  | .legal .enc => none
  | .legal .dec => none

section
variable {s : State}

/-! ### The refusals by their causes -/

theorem refusalOf_eq_illegalCmd_iff (d : Decoding) :
    s.refusalOf d = some .illegalCmd ↔ ∃ why, d = .illegal why := by
  rcases d with i | why
  · cases i <;> simp [State.refusalOf]
  · simp [State.refusalOf]

theorem refusalOf_eq_queueFull_iff (d : Decoding) :
    s.refusalOf d = some .queueFull ↔ ((∃ imm8, d = .legal (.pushb imm8)) ∧ s.blen = s.bcap) ∨
      ((∃ unk idx, d = .legal (.pushw unk idx)) ∧ s.wlen = s.wcap) := by
  rcases d with i | why
  · cases i <;> simp [State.refusalOf]
  · simp [State.refusalOf]

theorem refusalOf_eq_queueEmpty_iff (d : Decoding) :
    s.refusalOf d = some .queueEmpty ↔ (d = .legal .popb ∧ s.blen = 0) ∨ (d = .legal .popw ∧ s.wlen = 0) := by
  rcases d with i | why
  · cases i <;> simp [State.refusalOf]
  · simp [State.refusalOf]

/-! ### What a refused and an accepted word do -/

theorem exec_of_refusal {i : Instr} {rc : Rc} (h : s.refusalOf (.legal i) = some rc) :
    exec i s = .next (s.refuse rc) := by
  cases i with
  | nop | clr | enc | dec => cases h
  | pushb imm8 =>
    obtain ⟨hfull, ⟨⟩⟩ := Option.ite_none_right_eq_some.1 h
    exact exec_pushb_of_full hfull imm8
  | pushw unk idx =>
    obtain ⟨hfull, ⟨⟩⟩ := Option.ite_none_right_eq_some.1 h
    exact exec_pushw_of_full hfull unk idx
  | popb =>
    obtain ⟨hempty, ⟨⟩⟩ := Option.ite_none_right_eq_some.1 h
    exact exec_popb_of_nil (List.length_eq_zero_iff.1 hempty)
  | popw =>
    obtain ⟨hempty, ⟨⟩⟩ := Option.ite_none_right_eq_some.1 h
    exact exec_popw_of_nil (List.length_eq_zero_iff.1 hempty)

/-- A command that is not refused answers `OK` or, for a failing `DEC`, `OP_FAILED`. -/
theorem exec_of_no_refusal {i : Instr} (h : s.refusalOf (.legal i) = none) :
    ∃ t rc rdata, exec i s = .next t ∧ t.responses = s.responses ++ [⟨rc, rdata⟩] ∧ t.commands = s.commands ∧
      (rc = .ok ∨ rc = .opFailed) := by
  cases i with
  | nop | clr | enc => exact ⟨_, _, _, rfl, rfl, rfl, .inl rfl⟩
  | pushb imm8 =>
    have hroom : s.blen ≠ s.bcap := by simpa [State.refusalOf] using h
    exact ⟨_, _, _, exec_pushb_of_room hroom imm8, rfl, rfl, .inl rfl⟩
  | pushw unk idx =>
    have hroom : s.wlen ≠ s.wcap := by simpa [State.refusalOf] using h
    exact ⟨_, _, _, exec_pushw_of_room hroom unk idx, rfl, rfl, .inl rfl⟩
  | popb =>
    have hne : s.bq ≠ [] := by simpa [State.refusalOf, State.blen] using h
    obtain ⟨v, rest, hbq⟩ := List.exists_cons_of_ne_nil hne
    exact ⟨_, _, _, exec_popb_of_cons hbq, rfl, rfl, .inl rfl⟩
  | popw =>
    have hne : s.wq ≠ [] := by simpa [State.refusalOf, State.wlen] using h
    obtain ⟨v, rest, hwq⟩ := List.exists_cons_of_ne_nil hne
    exact ⟨_, _, _, exec_popw_of_cons hwq, rfl, rfl, .inl rfl⟩
  | dec =>
    obtain ⟨cand, r, -, hnext⟩ | ⟨kind, r, -, hnext⟩ := execDec_cases s
    · exact ⟨_, _, _, hnext, rfl, rfl, .inl rfl⟩
    · exact ⟨_, _, _, hnext, rfl, rfl, .inr rfl⟩

theorem serveCommand_of_refusal {w : CmdWord} {rc : Rc} (h : s.refusalOf (decode w) = some rc) :
    serveCommand w s = .next (s.refuse rc) := by
  rcases hd : decode w with i | why <;> rw [hd] at h
  · exact (serveCommand_of_legal hd s).trans (exec_of_refusal h)
  · cases h
    exact serveCommand_of_illegal hd s

theorem serveCommand_of_no_refusal {w : CmdWord} (h : s.refusalOf (decode w) = none) :
    ∃ t rc rdata, serveCommand w s = .next t ∧ t.responses = s.responses ++ [⟨rc, rdata⟩] ∧ t.commands = s.commands ∧
      (rc = .ok ∨ rc = .opFailed) := by
  rcases hd : decode w with i | why <;> rw [hd] at h
  · simpa only [serveCommand_of_legal hd] using exec_of_no_refusal h
  · cases h

end

/-! ### The statements -/

/-- Settles O11: a refused word adds its refusal and an accepted one its single answer, both on the state past the
word. -/
theorem everyCommandResponds : Obligations.EveryCommandResponds := by
  intro s w rest
  rw [step_command]
  rcases href : State.refusalOf { s with commands := rest } (decode w) with _ | rc
  · obtain ⟨t, rc, rdata, hnext, hresp, hcmds, -⟩ := serveCommand_of_no_refusal href
    exact ⟨t, ⟨rc, rdata⟩, hnext, hresp, hcmds⟩
  · exact ⟨_, ⟨rc, 0#12⟩, serveCommand_of_refusal href, rfl, rfl⟩

/-- Settles O24: the response code is the refusal where there is one, and otherwise none of the three; the causes are those
of `refusalOf`, which the word just taken from the port does not change. -/
theorem refusalsHaveTheirCausesAndChangeNothing : Obligations.RefusalsHaveTheirCausesAndChangeNothing := by
  intro s t w rest rc rdata hstep hresp
  rw [step_command] at hstep
  rw [← refusalOf_eq_illegalCmd_iff, ← refusalOf_eq_queueFull_iff, ← refusalOf_eq_queueEmpty_iff]
  rcases href : s.refusalOf (decode w) with _ | k
  · obtain ⟨t', rc', rdata', hnext, hresp', -, hcode⟩ := serveCommand_of_no_refusal (s := { s with commands := rest }) href
    obtain rfl : t' = t := by simpa [hnext] using hstep
    obtain ⟨rfl, -⟩ : rc' = rc ∧ rdata' = rdata := by simpa [hresp'] using hresp
    obtain rfl | rfl := hcode
    · simp
    · simp
  · have hnext := serveCommand_of_refusal (s := { s with commands := rest }) href
    obtain rfl : State.refuse k { s with commands := rest } = t := by simpa [hnext] using hstep
    obtain ⟨rfl, -⟩ : k = rc ∧ 0#12 = rdata := by simpa using hresp
    simp [State.refuse, State.respond]

end Sys2Proof.Machine

/-! ## Reset (70_reset_and_hazards.md R170) -/

namespace Sys2Proof.Machine

/-- The whole state after the effect that reset and `CLR` share; what is not written stays. -/
theorem State.clearBlock_eq (s : State) :
    s.clearBlock =
      { s with bq := [], wq := [], err := .none, drop := 0#2, csf := 0#9, csc := 0#9, epos := 0 } := rfl

/-- A step that finds the reset input clears the block in the state past that input, and does nothing else. -/
theorem step_reset (s : State) (rest : List PortInput) :
    step { s with commands := .reset :: rest } = .next (State.clearBlock { s with commands := rest }) := rfl

/-- Settles O8: a reset step is `clearBlock`, which writes the queues and the result registers and keeps the responses. -/
theorem resetStepClearsTheBlock : Obligations.ResetStepClearsTheBlock := by
  intro s rest
  rw [step_reset, State.clearBlock_eq]

end Sys2Proof.Machine

/-! ## Encoding: decoder and encoder are inverse, and the match/mask pairs decide (30_encoding.md R46 to R48) -/

namespace Sys2Proof

/-! ### A word and its fields -/

/-- A command word is its opcode followed by its argument (R45). -/
theorem opField_append_argField (w : CmdWord) : opField w ++ argField w = w := by
  apply BitVec.eq_of_toNat_eq
  simp only [opField, argField, toNat_concat, toNat_slice]
  omega

/-- Where `mask` has only ones, a word and its match value agree. -/
theorem extractLsb_eq_of_and_eq {w mask m : CmdWord} {hi lo : Nat} (h : w &&& mask = m)
    (hones : mask.extractLsb hi lo = BitVec.allOnes (hi - lo + 1)) : w.extractLsb hi lo = m.extractLsb hi lo := by
  rw [← h, BitVec.extractLsb_and, hones, BitVec.and_allOnes]

/-! ### Decoding an encoded command -/

/-- `PUSHB` with its must-be-zero bits zero (R47). -/
theorem decode_of_pushb {w : CmdWord} (hop : opField w = 2#4) (hhigh : w.extractLsb 11 8 = 0#4) :
    decode w = .legal (.pushb ((argField w).extractLsb 7 0)) := by
  rw [← extractLsb_argField] at hhigh
  simp [decode, hop, hhigh]

theorem decode_encode_pushb (b : Byte) : decode (encode (.pushb b)) = .legal (.pushb b) := by
  have hop : opField (encode (.pushb b)) = 2#4 := by
    apply BitVec.eq_of_toNat_eq
    simp only [opField, toNat_slice, encode_pushb_toNat, BitVec.toNat_ofNat]
    omega
  have hhigh : (encode (.pushb b)).extractLsb 11 8 = 0#4 := by
    apply BitVec.eq_of_toNat_eq
    simp only [toNat_slice, encode_pushb_toNat, BitVec.toNat_ofNat]
    omega
  have hlow : (argField (encode (.pushb b))).extractLsb 7 0 = b := by
    apply BitVec.eq_of_toNat_eq
    simp only [argField, toNat_slice, encode_pushb_toNat]
    omega
  rw [decode_of_pushb hop hhigh, hlow]

/-- The argument of `PUSHW` is the entry that it pushes (R47). -/
theorem encode_pushw_eq_append (unk : Bool) (idx : Index) :
    encode (.pushw unk idx) = 3#4 ++ (BitVec.ofBool unk ++ idx : Word12) := by
  apply BitVec.eq_of_toNat_eq
  simp only [encode, toNat_concat]
  omega

/-- The argument of a word put together from its two fields (R45). -/
theorem argField_append (op : BitVec 4) (arg : Word12) : argField (op ++ arg) = arg :=
  BitVec.eq_of_toNat_eq (by simp only [argField, toNat_slice, toNat_concat]; omega)

theorem decode_encode_pushw (unk : Bool) (idx : Index) : decode (encode (.pushw unk idx)) = .legal (.pushw unk idx) := by
  have hunk : (BitVec.ofBool unk ++ idx : Word12).getLsbD 11 = unk :=
    BitVec.getLsbD_append.trans (by simp)
  have hidx : (BitVec.ofBool unk ++ idx : Word12).extractLsb 10 0 = idx := by
    apply BitVec.eq_of_toNat_eq
    simp only [toNat_slice, toNat_concat]
    omega
  rw [encode_pushw_eq_append, decode_of_pushw (opField_append ..), argField_append, hunk, hidx]

theorem decode_encode (i : Instr) : decode (encode i) = .legal i := by
  cases i with
  | pushb imm8 => exact decode_encode_pushb imm8
  | pushw unk idx => exact decode_encode_pushw unk idx
  | nop | clr | popb | popw | enc | dec => rfl

/-! ### Encoding a decoded command -/

/-- A command without operand has one word: its opcode above a zero argument. -/
theorem word_of_withoutOperand {w : CmdWord} {op : BitVec 4} {i j : Instr} (hop : opField w = op)
    (h : withoutOperand (opField w) (argField w) j = .legal i) : i = j ∧ w = op ++ 0#12 := by
  unfold withoutOperand at h
  split at h
  case isTrue harg => exact ⟨(Decoding.legal.inj h).symm, by rw [← hop, ← harg, opField_append_argField]⟩
  case isFalse => cases h

theorem encode_pushb_of_fields {w : CmdWord} (hop : opField w = 2#4) (hhigh : (argField w).extractLsb 11 8 = 0#4) :
    encode (.pushb ((argField w).extractLsb 7 0)) = w := by
  have hop' := congrArg BitVec.toNat hop
  have hhigh' := congrArg BitVec.toNat hhigh
  apply BitVec.eq_of_toNat_eq
  simp only [opField, argField, toNat_slice, encode_pushb_toNat, BitVec.toNat_ofNat] at *
  omega

theorem encode_pushw_of_opField {w : CmdWord} (hop : opField w = 3#4) :
    encode (.pushw ((argField w).getLsbD 11) ((argField w).extractLsb 10 0)) = w := by
  have harg : (BitVec.ofBool ((argField w).getLsbD 11) ++ (argField w).extractLsb 10 0 : Word12) = argField w := by
    apply BitVec.eq_of_toNat_eq
    have := Nat.toNat_testBit (argField w).toNat 11
    simp only [toNat_concat, toNat_slice, BitVec.toNat_ofBool, BitVec.getLsbD, this]
    omega
  rw [encode_pushw_eq_append, harg, ← hop, opField_append_argField]

/-- The converse of `decode_encode`: each legal branch of the decoder fixes the whole word. -/
theorem encode_of_decode {w : CmdWord} {i : Instr} (h : decode w = .legal i) : encode i = w := by
  simp only [decode] at h
  split_ifs at h with h0 h1 h2 hhigh h3 h4 h5 h6 h7
  · obtain ⟨rfl, rfl⟩ := word_of_withoutOperand h0 h; rfl
  · obtain ⟨rfl, rfl⟩ := word_of_withoutOperand h1 h; rfl
  · cases h; exact encode_pushb_of_fields h2 hhigh
  · cases h; exact encode_pushw_of_opField h3
  · obtain ⟨rfl, rfl⟩ := word_of_withoutOperand h4 h; rfl
  · obtain ⟨rfl, rfl⟩ := word_of_withoutOperand h5 h; rfl
  · obtain ⟨rfl, rfl⟩ := word_of_withoutOperand h6 h; rfl
  · obtain ⟨rfl, rfl⟩ := word_of_withoutOperand h7 h; rfl

/-! ### The match/mask pairs -/

/-- A word that matches the pair of `PUSHB` is the word of a `PUSHB` (R48). -/
theorem eq_encode_pushb_of_mask {w : CmdWord} (h : w &&& 0xFF00#16 = 0x2000#16) : w = encode (.pushb (w.setWidth 8)) := by
  have hhigh : w.extractLsb 15 8 = 0x20#8 := extractLsb_eq_of_and_eq h rfl
  have hhigh' := congrArg BitVec.toNat hhigh
  apply BitVec.eq_of_toNat_eq
  simp only [toNat_slice, encode_pushb_toNat, BitVec.toNat_setWidth, BitVec.toNat_ofNat] at *
  omega

/-- A word that matches the pair of `PUSHW` is the word of a `PUSHW` (R48). -/
theorem eq_encode_pushw_of_mask {w : CmdWord} (h : w &&& 0xF000#16 = 0x3000#16) :
    w = encode (.pushw (w.getLsbD 11) (w.setWidth 11)) := by
  have hop : w.extractLsb 15 12 = 3#4 := extractLsb_eq_of_and_eq h rfl
  have hop' := congrArg BitVec.toNat hop
  have hbit := Nat.toNat_testBit w.toNat 11
  apply BitVec.eq_of_toNat_eq
  simp only [toNat_slice, encode_pushw_toNat, BitVec.toNat_setWidth, BitVec.toNat_ofNat, BitVec.getLsbD, hbit] at *
  omega

open Laws.MatchMask in
theorem encode_and_mask (i : Instr) : encode i &&& mask i = matchBits i := by
  cases i with
  | nop => exact nop
  | clr => exact clr
  | pushb imm8 => exact pushb imm8
  | pushw unk idx => exact pushw unk idx
  | popb => exact popb
  | popw => exact popw
  | enc => exact enc
  | dec => exact dec

/-- A word that matches no pair is illegal: the encoding of a command matches the pair of its row. -/
theorem decode_illegal_of_no_match {w : CmdWord} (h : ∀ i, w &&& Laws.MatchMask.mask i ≠ Laws.MatchMask.matchBits i) :
    ∃ why, decode w = .illegal why := by
  rcases hd : decode w with i | why
  · have hw := encode_of_decode hd
    exact absurd (hw ▸ encode_and_mask i) (h i)
  · exact ⟨why, rfl⟩

/-! ### The statements -/

/-- Settles O2: the fields of the encoded word are the operands, and the opcode picks the command. -/
theorem decodeEncodeRoundTrip : Obligations.DecodeEncodeRoundTrip :=
  fun i _ => decode_encode i

/-- Settles O3: the opcode and the argument of a legal word are those of its command, and they are the whole word. -/
theorem legalWordIsItsCommandsEncoding : Obligations.LegalWordIsItsCommandsEncoding :=
  fun _ _ => encode_of_decode

/-- Settles O4: a word that matches a pair is the encoding of that row's command, and the encoding of a command matches a
pair. -/
theorem matchMaskPairsDecideDecoding : Obligations.MatchMaskPairsDecideDecoding := by
  intro w
  have whole : w &&& 0xFFFF#16 = w := BitVec.and_allOnes
  rw [whole]
  refine ⟨fun h => h ▸ rfl, fun h => h ▸ rfl, fun h => ?_, fun h => ?_, fun h => h ▸ rfl, fun h => h ▸ rfl,
    fun h => h ▸ rfl, fun h => h ▸ rfl, fun hfixed hpushb hpushw => decode_illegal_of_no_match fun i => ?_⟩
  · exact (congrArg decode (eq_encode_pushb_of_mask h)).trans (decode_encode_pushb _)
  · exact (congrArg decode (eq_encode_pushw_of_mask h)).trans (decode_encode_pushw _ _)
  · simp only [List.mem_cons, List.not_mem_nil, or_false, not_or] at hfixed
    obtain ⟨hnop, hclr, hpopb, hpopw, henc, hdec⟩ := hfixed
    cases i with
    | pushb => exact hpushb
    | pushw => exact hpushw
    | nop => exact whole.symm ▸ hnop
    | clr => exact whole.symm ▸ hclr
    | popb => exact whole.symm ▸ hpopb
    | popw => exact whole.symm ▸ hpopw
    | enc => exact whole.symm ▸ henc
    | dec => exact whole.symm ▸ hdec

/-- Settles O1: each word is decoded by evaluation. -/
theorem decodesWordsOfTheSpec : Obligations.DecodesWordsOfTheSpec := by
  unfold Obligations.DecodesWordsOfTheSpec
  decide

end Sys2Proof

/-! ## The step: what a command does to the fields and the registers (10_state.md R10, R23, 30_encoding.md R50, R51) -/

namespace Sys2Proof.Machine

/-! ### What every command does -/

/-- The two states have the same result registers. -/
def State.SameResults (s t : State) : Prop :=
  t.err = s.err ∧ t.drop = s.drop ∧ t.csf = s.csf ∧ t.csc = s.csc ∧ t.epos = s.epos

theorem State.SameResults.refl (s : State) : s.SameResults s := ⟨rfl, rfl, rfl, rfl, rfl⟩

/-- What holds of every command: the capacity and the inputs stay, one response of the table of R51 is added, only a
successful pop has data in it (R50), and only `CLR`, `ENC` and `DEC` write the result registers (10_state.md section 3). -/
structure CommandEffect (i : Instr) (s t : State) : Prop where
  gmax : t.gmax = s.gmax
  commands : t.commands = s.commands
  response : ∃ rc rdata, t.responses = s.responses ++ [⟨rc, rdata⟩] ∧ rc ∈ listedCodes i ∧
    (rdata ≠ 0#12 → rc = .ok ∧ (i = .popb ∨ i = .popw))
  results : s.SameResults t ∨ i = .clr ∨ i = .enc ∨ i = .dec

section
variable {i : Instr} {s t u : State}

/-- A command that updates the state to `u` and then answers without data. -/
theorem CommandEffect.respond_zero {rc : Rc} (hgmax : u.gmax = s.gmax) (hcmds : u.commands = s.commands)
    (hresp : u.responses = s.responses) (hcode : rc ∈ listedCodes i)
    (hresults : s.SameResults u ∨ i = .clr ∨ i = .enc ∨ i = .dec) : CommandEffect i s (u.respond rc 0#12) where
  gmax := hgmax
  commands := hcmds
  response := ⟨rc, 0#12, by rw [State.respond_responses, hresp], hcode, fun hne => absurd rfl hne⟩
  results := hresults

/-- A command that answers without data and changes nothing else, such as a refusal (R151). -/
theorem CommandEffect.only_respond {rc : Rc} (hcode : rc ∈ listedCodes i) : CommandEffect i s (s.respond rc 0#12) :=
  .respond_zero rfl rfl rfl hcode (.inl (.refl s))

theorem exec_effect (h : exec i s = .next t) : CommandEffect i s t := by
  cases i with
  | nop =>
    cases h
    exact .only_respond (by decide)
  | clr =>
    cases h
    exact .respond_zero rfl rfl rfl (by decide) (.inr (.inl rfl))
  | pushb imm8 =>
    obtain ⟨-, hnext⟩ | ⟨-, hnext⟩ := execPushb_cases imm8 s <;> cases hnext.symm.trans h
    · exact .only_respond (by simp [listedCodes])
    · exact .respond_zero rfl rfl rfl (by simp [listedCodes]) (.inl (.refl s))
  | pushw unk idx =>
    obtain ⟨-, hnext⟩ | ⟨-, hnext⟩ := execPushw_cases unk idx s <;> cases hnext.symm.trans h
    · exact .only_respond (by simp [listedCodes])
    · exact .respond_zero rfl rfl rfl (by simp [listedCodes]) (.inl (.refl s))
  | popb =>
    obtain ⟨-, hnext⟩ | ⟨v, q, -, hnext⟩ := execPopb_cases s <;> cases hnext.symm.trans h
    · exact .only_respond (by decide)
    · exact ⟨rfl, rfl, ⟨_, _, rfl, by decide, fun _ => ⟨rfl, .inl rfl⟩⟩, .inl (.refl s)⟩
  | popw =>
    obtain ⟨-, hnext⟩ | ⟨v, q, -, hnext⟩ := execPopw_cases s <;> cases hnext.symm.trans h
    · exact .only_respond (by decide)
    · exact ⟨rfl, rfl, ⟨_, _, rfl, by decide, fun _ => ⟨rfl, .inr rfl⟩⟩, .inl (.refl s)⟩
  | enc =>
    cases h
    exact .respond_zero rfl rfl rfl (by decide) (.inr (.inr (.inl rfl)))
  | dec =>
    obtain ⟨_, _, -, hnext⟩ | ⟨_, _, -, hnext⟩ := execDec_cases s <;> cases hnext.symm.trans h
    · exact .respond_zero rfl rfl rfl (by decide) (.inr (.inr (.inr rfl)))
    · exact .respond_zero rfl rfl rfl (by decide) (.inr (.inr (.inr rfl)))

end

/-! ### Every listed code is given -/

/-- In an empty block of capacity 1 a push, `NOP`, `CLR` and `ENC` succeed and a pop and `DEC` do not; one byte or one
entry lets the pop succeed, and the entry of a check-word 0 lets `DEC` succeed. With `GMAX = 0` the byte queue is always
full, and the word queue is full with one entry. -/
theorem every_listed_code_is_given (i : Instr) (rc : Rc) (h : rc ∈ listedCodes i) :
    ∃ (s t : State) (rdata : Word12), exec i s = .next t ∧ t.responses = s.responses ++ [⟨rc, rdata⟩] := by
  cases i <;> simp only [listedCodes, List.mem_cons, List.not_mem_nil, or_false] at h
  case nop | clr | enc => subst h; exact ⟨.resetOf 1, _, _, rfl, rfl⟩
  case pushb =>
    obtain rfl | rfl := h
    · exact ⟨.resetOf 1, _, _, rfl, rfl⟩
    · exact ⟨.resetOf 0, _, _, rfl, rfl⟩
  case pushw =>
    obtain rfl | rfl := h
    · exact ⟨.resetOf 1, _, _, rfl, rfl⟩
    · exact ⟨{ State.resetOf 0 with wq := [⟨false, 0#11⟩] }, _, _, rfl, rfl⟩
  case popb =>
    obtain rfl | rfl := h
    · exact ⟨{ State.resetOf 1 with bq := [0#8] }, _, _, rfl, rfl⟩
    · exact ⟨.resetOf 1, _, _, rfl, rfl⟩
  case popw =>
    obtain rfl | rfl := h
    · exact ⟨{ State.resetOf 1 with wq := [⟨false, 0#11⟩] }, _, _, rfl, rfl⟩
    · exact ⟨.resetOf 1, _, _, rfl, rfl⟩
  case dec =>
    obtain rfl | rfl := h
    · exact ⟨{ State.resetOf 1 with wq := [⟨false, 0#11⟩] }, _, _, rfl, rfl⟩
    · exact ⟨.resetOf 1, _, _, rfl, rfl⟩

/-! ### No command reads a result register -/

/-- A command either writes all five registers from the queues alone, or leaves them and does not look at them (R23). -/
theorem exec_setResults (i : Instr) (s : State) (e : Err) (r : ByProducts) {t : State} (h : exec i s = .next t) :
    exec i (s.setResults e r) = .next t ∨
    (exec i (s.setResults e r) = .next (t.setResults e r) ∧ s.SameResults t) := by
  cases i with
  | nop => cases h; exact .inr ⟨rfl, .refl s⟩
  | clr | enc => cases h; exact .inl rfl
  | pushb imm8 =>
    obtain ⟨hfull, hnext⟩ | ⟨hroom, hnext⟩ := execPushb_cases imm8 s <;> cases hnext.symm.trans h
    · exact .inr ⟨exec_pushb_of_full (s := s.setResults e r) hfull imm8, .refl s⟩
    · exact .inr ⟨exec_pushb_of_room (s := s.setResults e r) hroom imm8, .refl s⟩
  | pushw unk idx =>
    obtain ⟨hfull, hnext⟩ | ⟨hroom, hnext⟩ := execPushw_cases unk idx s <;> cases hnext.symm.trans h
    · exact .inr ⟨exec_pushw_of_full (s := s.setResults e r) hfull unk idx, .refl s⟩
    · exact .inr ⟨exec_pushw_of_room (s := s.setResults e r) hroom unk idx, .refl s⟩
  | popb =>
    obtain ⟨hnil, hnext⟩ | ⟨v, q, hcons, hnext⟩ := execPopb_cases s <;> cases hnext.symm.trans h
    · exact .inr ⟨exec_popb_of_nil hnil, .refl s⟩
    · exact .inr ⟨exec_popb_of_cons hcons, .refl s⟩
  | popw =>
    obtain ⟨hnil, hnext⟩ | ⟨v, q, hcons, hnext⟩ := execPopw_cases s <;> cases hnext.symm.trans h
    · exact .inr ⟨exec_popw_of_nil hnil, .refl s⟩
    · exact .inr ⟨exec_popw_of_cons hcons, .refl s⟩
  | dec =>
    obtain ⟨_, _, hdec, hnext⟩ | ⟨_, _, hdec, hnext⟩ := execDec_cases s <;> cases hnext.symm.trans h
    · exact .inl (exec_dec_of_ok hdec)
    · exact .inl (exec_dec_of_fail hdec)

/-! ### The statements -/

/-- Settles O5: the port takes the word off the list and hands its command to `exec`. -/
theorem stepRunsTheDecodedCommand : Obligations.StepRunsTheDecodedCommand := by
  intro s w i rest h
  rw [step_command, serveCommand_of_legal h]

/-- Settles O6: the presented word is the command's encoding, which decodes to it, and taking it off the port restores the
list of inputs. -/
theorem presentedWordRunsNext : Obligations.PresentedWordRunsNext := by
  intro s i
  have hword : tableWord 16 (encode i).toNat = encode i := by
    apply BitVec.eq_of_toNat_eq
    simp only [tableWord, BitVec.toNat_ofNat]
    omega
  rw [State.withFetchWord, hword]
  exact stepRunsTheDecodedCommand s (encode i) i s.commands (decode_encode i)

/-- Settles O9: the port without inputs is idle. -/
theorem idleStepChangesNothing : Obligations.IdleStepChangesNothing := by
  intro s h
  simp only [step, servePort, h, idle]

/-- Settles O10: reset and `CLR` write the same constants to every field of the block. -/
theorem resetStateIsEmptyAndZero : Obligations.ResetStateIsEmptyAndZero :=
  ⟨fun _ => ⟨rfl, rfl, rfl, rfl, rfl, rfl, rfl, rfl, rfl⟩, rfl, fun _ => ⟨_, rfl, ⟨rfl, rfl, rfl, rfl, rfl, rfl, rfl⟩⟩⟩

/-- Settles O12: an idle step and a reset add no response, a refused word and a command add one. -/
theorem stepKeepsTheModelsOwnFields : Obligations.StepKeepsTheModelsOwnFields := by
  intro s t h
  obtain ⟨hnil, hstep⟩ | ⟨rest, hcmds, hstep⟩ | ⟨w, rest, why, hcmds, -, hstep⟩ | ⟨w, rest, i, hcmds, -, hstep⟩ :=
    step_cases s
  · cases hstep.symm.trans h
    exact ⟨rfl, by rw [hnil, List.tail_nil], [], by rw [List.append_nil], Nat.zero_le 1⟩
  · cases hstep.symm.trans h
    exact ⟨rfl, by rw [hcmds]; rfl, [], (List.append_nil _).symm, Nat.zero_le 1⟩
  · cases hstep.symm.trans h
    exact ⟨rfl, by rw [hcmds]; rfl, _, rfl, Nat.le_refl 1⟩
  · obtain ⟨hgmax, hcommands, ⟨rc, rdata, hresp, -⟩, -⟩ := exec_effect (hstep.symm.trans h)
    exact ⟨hgmax, by rw [hcommands, hcmds]; rfl, _, hresp, Nat.le_refl 1⟩

/-- Settles O19: an idle step and a refused word write no register, and a command that writes one is `CLR`, `ENC` or
`DEC`. -/
theorem onlyEncDecClrAndResetWriteResultRegisters : Obligations.OnlyEncDecClrAndResetWriteResultRegisters := by
  intro s t h
  obtain ⟨-, hstep⟩ | ⟨rest, hcmds, -⟩ | ⟨w, rest, why, -, -, hstep⟩ | ⟨w, rest, i, hcmds, hdecode, hstep⟩ :=
    step_cases s
  · cases hstep.symm.trans h
    exact .inl (State.SameResults.refl s)
  · exact .inr (.inl (by rw [hcmds]; rfl))
  · cases hstep.symm.trans h
    exact .inl (State.SameResults.refl s)
  · obtain hsame | hwriter := (exec_effect (hstep.symm.trans h)).results
    · exact .inl hsame
    · refine .inr (.inr ⟨w, by rw [hcmds]; rfl, ?_⟩)
      simpa only [hdecode, Decoding.legal.injEq] using hwriter

/-- Settles O22: the codes of the table are those of `exec_effect`, each given by a state named in
`every_listed_code_is_given`, and an illegal word is refused. -/
theorem commandsGiveExactlyTheListedCodes : Obligations.CommandsGiveExactlyTheListedCodes := by
  refine ⟨fun i s t h => ?_, every_listed_code_is_given, fun w why hillegal s t rest h => ?_⟩
  · obtain ⟨rc, rdata, hresp, hcode, -⟩ := (exec_effect h).response
    exact ⟨rc, rdata, hresp, hcode⟩
  · rw [step_command, serveCommand_of_illegal hillegal] at h
    cases h
    rfl

/-- Settles O23: a refused word has no data in its response, and of the commands only a successful pop has. -/
theorem rdataIsZeroUnlessAPopSucceeds : Obligations.RdataIsZeroUnlessAPopSucceeds := by
  intro s t w rest rc rdata h hresp hne
  rw [step_command] at h
  rcases hdecode : decode w with i | why
  · rw [serveCommand_of_legal hdecode] at h
    obtain ⟨rc', rdata', hresp', -, hdata⟩ := (exec_effect h).response
    obtain ⟨rfl, rfl⟩ : rc' = rc ∧ rdata' = rdata := by simpa [hresp'] using hresp
    simpa only [Decoding.legal.injEq] using hdata hne
  · rw [serveCommand_of_illegal hdecode] at h
    cases h
    obtain ⟨-, rfl⟩ : Rc.illegalCmd = rc ∧ 0#12 = rdata := by simpa using hresp
    exact absurd rfl hne

/-- Settles O25: the codes are read off their definitions. -/
theorem numericCodesOfErrAndRc : Obligations.NumericCodesOfErrAndRc :=
  ⟨rfl, rfl, rfl, rfl, rfl, rfl, rfl, rfl, rfl⟩

/-- Settles O43: the error taken is the kind's own value of `ERR`, with its code of R15. -/
theorem failingDecTakesTheError : Obligations.FailingDecTakesTheError :=
  fun _ kind _ h => ⟨kind.toErr, fun hk => hk ▸ rfl, fun hk => hk ▸ rfl, fun hk => hk ▸ rfl, exec_dec_of_fail h⟩

/-- Settles O51: `ENC` writes functions of `BQ`, and `DEC` the result of `DECODE` of `WQ`. -/
theorem encAndDecForgetHistory : Obligations.EncAndDecForgetHistory := by
  refine fun s s' => ⟨fun hbq => ?_, fun hwq => ?_⟩
  · refine ⟨_, _, _, rfl, rfl, ?_, rfl, rfl⟩
    constructor <;> simp [hbq]
  · obtain ⟨cand, r, hdec, -⟩ | ⟨kind, r, hdec, -⟩ := execDec_cases s
    · exact ⟨_, _, _, exec_dec_of_ok hdec, exec_dec_of_ok (hwq ▸ hdec), ⟨rfl, rfl, rfl, rfl, rfl, rfl, rfl⟩, rfl, rfl⟩
    · exact ⟨_, _, _, exec_dec_of_fail hdec, exec_dec_of_fail (hwq ▸ hdec), ⟨rfl, rfl, rfl, rfl, rfl, rfl, rfl⟩, rfl, rfl⟩

/-- Settles O52: writing the five registers before a command changes nothing after it but registers that it keeps. -/
theorem noCommandReadsAResultRegister : Obligations.NoCommandReadsAResultRegister := by
  intro i s t e d c a p h
  obtain hsame | ⟨hkept, hresults⟩ := exec_setResults i s e ⟨d, c, a, p⟩ h
  · exact ⟨t, hsame, .inl rfl⟩
  · exact ⟨_, hkept, .inr ⟨rfl, hresults⟩⟩

end Sys2Proof.Machine

/-! ## The checksum engine and the check-word codec (41_checkword_codec.md R82 to R88, 40_bit_grouping.md R72) -/

namespace Sys2Proof.Machine

/-! ### The drop count -/

/-- The drop count completes the last group of four (R82). -/
theorem add_dropCnt_toNat (n : Nat) : n + (dropCnt n).toNat = 4 * ((n + 3) / 4) := by
  rw [dropCnt_toNat]
  omega

/-- `(4 - x) mod 4 = (-x) mod 4`, in two bits (R82). -/
theorem dropCnt_eq_neg (n : Nat) : dropCnt n = -BitVec.ofNat 2 n := by
  apply BitVec.eq_of_toNat_eq
  rw [dropCnt_toNat, BitVec.toNat_neg, BitVec.toNat_ofNat]

/-! ### The checksum as a sum -/

theorem csumStep_toNat (acc : Checksum) (b : Byte) : (csumStep acc b).toNat = (acc.toNat + b.toNat) % 512 := by
  rw [csumStep, BitVec.toNat_add, BitVec.toNat_setWidth]
  omega

theorem foldl_csumStep_toNat (s : List Byte) (acc : Checksum) :
    (s.foldl csumStep acc).toNat = (acc.toNat + (s.map BitVec.toNat).sum) % 512 := by
  induction s generalizing acc with
  | nil =>
    simp only [List.foldl_nil, List.map_nil, List.sum_nil]
    omega
  | cons b s ih =>
    rw [List.foldl_cons, ih, csumStep_toNat, List.map_cons, List.sum_cons]
    omega

/-- `CSUM` is the sum of the bytes modulo 512 (R84). -/
theorem csum_toNat (s : List Byte) : (csum s).toNat = (s.map BitVec.toNat).sum % 512 := by
  rw [csum, foldl_csumStep_toNat, BitVec.toNat_ofNat, Nat.zero_mod, Nat.zero_add]

/-! ### The laws of R85 -/

theorem csum_append_toNat (s t : List Byte) : (csum (s ++ t)).toNat = ((csum s).toNat + (csum t).toNat) % 512 := by
  rw [csum_toNat, csum_toNat, csum_toNat, List.map_append, List.sum_append, Nat.add_mod]

theorem csum_eq_of_perm {s t : List Byte} (h : s.Perm t) : csum s = csum t := by
  apply BitVec.eq_of_toNat_eq
  rw [csum_toNat, csum_toNat, (h.map BitVec.toNat).sum_eq]

theorem csum_append_zeros (s : List Byte) (k : Nat) : csum (s ++ List.replicate k 0#8) = csum s := by
  apply BitVec.eq_of_toNat_eq
  have hzeros : ((List.replicate k 0#8).map BitVec.toNat).sum = 0 := by simp
  rw [csum_toNat, csum_toNat, List.map_append, List.sum_append, hzeros, Nat.add_zero]

/-- Exchanging one byte exchanges its summand. -/
theorem sum_toNat_set {s : List Byte} {i : Nat} {old : Byte} (h : s[i]? = some old) (new : Byte) :
    ((s.set i new).map BitVec.toNat).sum + old.toNat = (s.map BitVec.toNat).sum + new.toNat := by
  induction s generalizing i with
  | nil => cases h
  | cons b s ih =>
    cases i with
    | zero =>
      obtain rfl : b = old := Option.some.inj h
      simp only [List.set_cons_zero, List.map_cons, List.sum_cons]
      omega
    | succ i =>
      have := ih (i := i) h
      simp only [List.set_cons_succ, List.map_cons, List.sum_cons]
      omega

/-- Two bytes differ by less than 512, so exchanging one for the other shows in the sum. -/
theorem csum_set_ne {s : List Byte} {i : Nat} {old new : Byte} (h : s[i]? = some old) (hne : new ≠ old) :
    csum (s.set i new) ≠ csum s := by
  intro heq
  apply hne
  apply BitVec.eq_of_toNat_eq
  have hmod := congrArg BitVec.toNat heq
  have hsum := sum_toNat_set h new
  rw [csum_toNat, csum_toNat] at hmod
  omega

/-! ### The check-word fields -/

theorem ckEnc_toNat (d : DropCount) (c : Checksum) : (ckEnc d c).toNat = d.toNat * 512 + c.toNat :=
  toNat_concat d c

theorem ckDec_fst_toNat (i : Index) : (ckDec i).1.toNat = i.toNat / 512 := by
  simp only [ckDec, toNat_slice]
  omega

theorem ckDec_snd_toNat (i : Index) : (ckDec i).2.toNat = i.toNat % 512 := by
  simp only [ckDec, toNat_slice]
  omega

@[simp] theorem ckDec_ckEnc (d : DropCount) (c : Checksum) : ckDec (ckEnc d c) = (d, c) := by
  refine Prod.ext (BitVec.eq_of_toNat_eq ?_) (BitVec.eq_of_toNat_eq ?_)
  · rw [ckDec_fst_toNat, ckEnc_toNat]
    show _ = d.toNat
    omega
  · rw [ckDec_snd_toNat, ckEnc_toNat]
    show _ = c.toNat
    omega

theorem ckEnc_ckDec (i : Index) : ckEnc (ckDec i).1 (ckDec i).2 = i := by
  apply BitVec.eq_of_toNat_eq
  rw [ckEnc_toNat, ckDec_fst_toNat, ckDec_snd_toNat]
  omega

theorem ckEnc_inj {d d' : DropCount} {c c' : Checksum} (h : ckEnc d c = ckEnc d' c') : d = d' ∧ c = c' := by
  have hdec := congrArg ckDec h
  rwa [ckDec_ckEnc, ckDec_ckEnc, Prod.mk.injEq] at hdec

/-! ### `TOBIN` -/

/-- A value that a vector of the width has fits the width (R65). -/
theorem toBin_toNat {n : Nat} (v : BitVec n) : toBin v.toNat n = some v := by
  rw [toBin, if_pos v.isLt, BitVec.ofNat_toNat, BitVec.setWidth_eq]

/-! ### The statements -/

/-- Settles O33: the complement to a full group is unique below 4, so no smaller multiple of 4 will do. -/
theorem dropCountCompletesTheLastGroup : Obligations.DropCountCompletesTheLastGroup := by
  refine fun n => ⟨dropCnt_toNat n, dropCnt_eq_neg n, add_dropCnt_toNat n, fun m hle hmod => ?_⟩
  rw [add_dropCnt_toNat]
  omega

/-- Settles O34: each step adds modulo 512, so the fold is the sum modulo 512. -/
theorem checksumIsTheByteSumModulo512 : Obligations.ChecksumIsTheByteSumModulo512 :=
  ⟨csumStep_toNat, fun s => ⟨csum_toNat s, rfl⟩⟩

/-- Settles O35: the laws are those of the sum of the bytes. -/
theorem checksumLaws : Obligations.ChecksumLaws :=
  ⟨fun _ _ => csum_eq_of_perm, csum_append_zeros, csum_append_toNat, fun _ _ _ _ => csum_set_ne, rfl, rfl⟩

/-- Settles O36: the two fields are quotient and remainder by 512. -/
theorem checkWordCodecIsABijection : Obligations.CheckWordCodecIsABijection :=
  ⟨fun d c => ⟨ckEnc_toNat d c, ckDec_ckEnc d c⟩, fun i => ⟨ckDec_fst_toNat i, ckDec_snd_toNat i, ckEnc_ckDec i⟩⟩

/-- Settles O30: each value that is given to `TOBIN` is that of a vector of the width. -/
theorem encodingErrorIsUnreachable : Obligations.EncodingErrorIsUnreachable := by
  refine ⟨toBin_toNat, toBin_toNat, fun n => ?_, fun s => ?_⟩
  · rw [← dropCnt_toNat, toBin_toNat]
  · rw [← csum_toNat, toBin_toNat]

end Sys2Proof.Machine

/-! ## The bit-packer: `PACK4` and `UNPACK3` undo each other, and SPL's bit strings (40_bit_grouping.md R68 to R71) -/

namespace Sys2Proof.Machine

/-! ### Groups given by the values of their parts -/

theorem Words3.eq_mk {x : Words3} {w0 w1 w2 : Index} (h0 : x.w0.toNat = w0.toNat) (h1 : x.w1.toNat = w1.toNat)
    (h2 : x.w2.toNat = w2.toNat) : x = ⟨w0, w1, w2⟩ := by
  rw [← BitVec.eq_of_toNat_eq h0, ← BitVec.eq_of_toNat_eq h1, ← BitVec.eq_of_toNat_eq h2]

theorem Bytes4.eq_mk {x : Bytes4} {b0 b1 b2 b3 : Byte} {pad : BitVec 1} (h0 : x.b0.toNat = b0.toNat)
    (h1 : x.b1.toNat = b1.toNat) (h2 : x.b2.toNat = b2.toNat) (h3 : x.b3.toNat = b3.toNat)
    (hpad : x.pad.toNat = pad.toNat) : x = ⟨b0, b1, b2, b3, pad⟩ := by
  rw [← BitVec.eq_of_toNat_eq h0, ← BitVec.eq_of_toNat_eq h1, ← BitVec.eq_of_toNat_eq h2, ← BitVec.eq_of_toNat_eq h3,
    ← BitVec.eq_of_toNat_eq hpad]

/-! ### `UNPACK3` after `PACK4` -/

/-- No payload bit is lost, and the pad bit is 0 (R70). -/
theorem unpack3_pack4 (b0 b1 b2 b3 : Byte) :
    unpack3 (pack4 b0 b1 b2 b3).w0 (pack4 b0 b1 b2 b3).w1 (pack4 b0 b1 b2 b3).w2 = ⟨b0, b1, b2, b3, 0#1⟩ := by
  have h0 := pack4_w0_toNat b0 b1 b2 b3
  have h1 := pack4_w1_toNat b0 b1 b2 b3
  have h2 := pack4_w2_toNat b0 b1 b2 b3
  refine Bytes4.eq_mk ?_ ?_ ?_ ?_ ?_
  · rw [unpack3_b0_toNat]; omega
  · rw [unpack3_b1_toNat]; omega
  · rw [unpack3_b2_toNat]; omega
  · rw [unpack3_b3_toNat]; omega
  · rw [unpack3_pad_toNat, pack4_w2_even]; rfl

/-- `PACK4` has `UNPACK3` as a left inverse, so it is injective. -/
theorem pack4_inj {a0 a1 a2 a3 b0 b1 b2 b3 : Byte} (h : pack4 a0 a1 a2 a3 = pack4 b0 b1 b2 b3) :
    a0 = b0 ∧ a1 = b1 ∧ a2 = b2 ∧ a3 = b3 := by
  have hbytes := (unpack3_pack4 a0 a1 a2 a3).symm.trans (h ▸ unpack3_pack4 b0 b1 b2 b3)
  simpa using hbytes

/-! ### `PACK4` after `UNPACK3` -/

/-- The index with its pad bit cleared (R71). -/
theorem sub_and_one_toNat (w : Index) : (w - (w &&& 1#11)).toNat = w.toNat - w.toNat % 2 := by
  have hbit : (w &&& 1#11).toNat = w.toNat % 2 := by rw [BitVec.toNat_and]; exact Nat.and_one_is_mod w.toNat
  rw [BitVec.toNat_sub, hbit]
  omega

theorem sub_and_one_eq_self_iff (w : Index) : w - (w &&& 1#11) = w ↔ w.toNat % 2 = 0 := by
  rw [← BitVec.toNat_inj, sub_and_one_toNat]
  omega

/-- Only the pad bit is lost (R71). -/
theorem pack4_unpack3 (w0 w1 w2 : Index) :
    pack4 (unpack3 w0 w1 w2).b0 (unpack3 w0 w1 w2).b1 (unpack3 w0 w1 w2).b2 (unpack3 w0 w1 w2).b3 =
      ⟨w0, w1, w2 - (w2 &&& 1#11)⟩ := by
  have h0 := unpack3_b0_toNat w0 w1 w2
  have h1 := unpack3_b1_toNat w0 w1 w2
  have h2 := unpack3_b2_toNat w0 w1 w2
  have h3 := unpack3_b3_toNat w0 w1 w2
  refine Words3.eq_mk ?_ ?_ ?_
  · rw [pack4_w0_toNat]; omega
  · rw [pack4_w1_toNat]; omega
  · rw [pack4_w2_toNat, sub_and_one_toNat]; omega

/-- The pad bit flipped, as arithmetic. -/
theorem xor_one_toNat (w : Index) : (w ^^^ 1#11).toNat = if w.toNat % 2 = 0 then w.toNat + 1 else w.toNat - 1 := by
  rw [BitVec.toNat_xor]
  split
  case isTrue h => exact Nat.xor_one_of_even (Nat.even_iff.2 h)
  case isFalse h => exact Nat.xor_one_of_odd (Nat.odd_iff.2 (Nat.mod_two_ne_zero.1 h))

theorem xor_one_ne_self (w : Index) : w ^^^ 1#11 ≠ w := by
  rw [Ne, ← BitVec.toNat_inj, xor_one_toNat]
  split <;> omega

/-- Two indices that agree with the pad bit cleared differ in the pad bit at most. -/
theorem eq_or_eq_xor_one {v w : Index} (h : v - (v &&& 1#11) = w - (w &&& 1#11)) : v = w ∨ v = w ^^^ 1#11 := by
  have hval := congrArg BitVec.toNat h
  rw [sub_and_one_toNat, sub_and_one_toNat] at hval
  rw [← BitVec.toNat_inj, ← BitVec.toNat_inj, xor_one_toNat]
  split <;> omega

/-- The bytes fix the indices up to the pad bit (R71). -/
theorem unpack3_bytes_eq_iff (v0 v1 v2 w0 w1 w2 : Index) :
    { unpack3 v0 v1 v2 with pad := 0#1 } = { unpack3 w0 w1 w2 with pad := 0#1 } ↔
      v0 = w0 ∧ v1 = w1 ∧ (v2 = w2 ∨ v2 = w2 ^^^ 1#11) := by
  constructor
  · intro h
    obtain ⟨h0, h1, h2, h3, -⟩ := Bytes4.mk.inj h
    have hwords := pack4_unpack3 v0 v1 v2
    rw [h0, h1, h2, h3, pack4_unpack3] at hwords
    obtain ⟨e0, e1, e2⟩ := Words3.mk.inj hwords
    exact ⟨e0.symm, e1.symm, eq_or_eq_xor_one e2.symm⟩
  · rintro ⟨rfl, rfl, rfl | rfl⟩
    · rfl
    · rw [unpack3_xor_one]

/-! ### Bit strings -/

/-- The number that a bit string denotes after the value `acc` of the bits before it, as `parseBits` reads it. -/
def bitsValue (acc : Nat) (cs : List Bool) : Nat := cs.foldl (fun acc c => 2 * acc + c.toNat) acc

theorem parseBits_toNat (N : Nat) (cs : List Bool) : (parseBits N cs).toNat = bitsValue 0 cs % 2 ^ N :=
  BitVec.toNat_ofNat ..

@[simp] theorem bitsValue_nil (acc : Nat) : bitsValue acc [] = acc := rfl

@[simp] theorem bitsValue_cons (acc : Nat) (c : Bool) (cs : List Bool) :
    bitsValue acc (c :: cs) = bitsValue (2 * acc + c.toNat) cs := rfl

@[simp] theorem bitsValue_append (acc : Nat) (as cs : List Bool) :
    bitsValue acc (as ++ cs) = bitsValue (bitsValue acc as) cs := List.foldl_append

/-- The bits before a bit string weigh more than the whole of it. -/
theorem bitsValue_eq (cs : List Bool) (acc : Nat) : bitsValue acc cs = acc * 2 ^ cs.length + bitsValue 0 cs := by
  induction cs generalizing acc with
  | nil => simp
  | cons c cs ih =>
    rw [bitsValue_cons, bitsValue_cons, ih, ih (2 * 0 + c.toNat), List.length_cons, Nat.pow_succ]
    ring

theorem bitsValue_lt (cs : List Bool) : bitsValue 0 cs < 2 ^ cs.length := by
  induction cs with
  | nil => simp
  | cons c cs ih =>
    have hbit : c.toNat * 2 ^ cs.length ≤ 1 * 2 ^ cs.length := Nat.mul_le_mul_right _ (Bool.toNat_le c)
    rw [bitsValue_cons, bitsValue_eq, Nat.mul_zero, Nat.zero_add, List.length_cons, Nat.pow_succ]
    omega

/-- The first `k` characters of a bit string denote the top `k` bits of the vector (93 G2). -/
theorem bitsValue_bitString_take {N : Nat} (v : BitVec N) {k : Nat} (hk : k ≤ N) :
    bitsValue 0 ((List.range k).map fun j => v.getMsbD j) = v.toNat / 2 ^ (N - k) := by
  induction k with
  | zero => simp [Nat.div_eq_of_lt v.isLt]
  | succ k ih =>
    have hbit : (v.getMsbD k).toNat = v.toNat / 2 ^ (N - (k + 1)) % 2 := by
      rw [BitVec.getMsbD_eq_getLsbD, decide_eq_true (by omega : k < N), Bool.true_and, BitVec.getLsbD,
        Nat.toNat_testBit, Nat.sub_sub, Nat.add_comm 1 k]
    have hhalf : v.toNat / 2 ^ (N - k) = v.toNat / 2 ^ (N - (k + 1)) / 2 := by
      rw [Nat.div_div_eq_div_mul, ← Nat.pow_succ]
      congr 2
      omega
    rw [List.range_succ, List.map_append, bitsValue_append, ih (by omega), hhalf, List.map_singleton, bitsValue_cons,
      bitsValue_nil, hbit, Nat.div_add_mod]

@[simp] theorem bitString_length {N : Nat} (v : BitVec N) : (bitString v).length = N := by
  rw [bitString, List.length_map, List.length_range]

@[simp] theorem bitsValue_bitString {N : Nat} (v : BitVec N) (acc : Nat) :
    bitsValue acc (bitString v) = acc * 2 ^ N + v.toNat := by
  rw [bitsValue_eq, bitString_length, bitString, bitsValue_bitString_take v (Nat.le_refl N), Nat.sub_self, Nat.pow_zero,
    Nat.div_one]

/-- The bits before the last `L` of a bit string are the upper part of the vector. -/
theorem parseBits_append {n L : Nat} {g : BitVec n} {as cs : List Bool} (has : bitsValue 0 as = g.toNat)
    (hcs : cs.length = L) : parseBits (n + L) (as ++ cs) = g ++ parseBits L cs := by
  subst hcs
  apply BitVec.eq_of_toNat_eq
  rw [toNat_concat, parseBits_toNat, parseBits_toNat, Nat.mod_eq_of_lt (bitsValue_lt cs), bitsValue_append, has,
    bitsValue_eq, Nat.mod_eq_of_lt]
  calc g.toNat * 2 ^ cs.length + bitsValue 0 cs
    _ < (g.toNat + 1) * 2 ^ cs.length := by rw [Nat.add_one_mul]; exact Nat.add_lt_add_left (bitsValue_lt cs) _
    _ ≤ 2 ^ n * 2 ^ cs.length := Nat.mul_le_mul_right _ g.isLt
    _ = 2 ^ (n + cs.length) := (Nat.pow_add ..).symm

/-! ### The encoder's pipeline -/

/-- The bit string of four bytes with one `0` appended is that of the group of R68. -/
theorem parseBits_bytes (b0 b1 b2 b3 : Byte) :
    parseBits 33 ([b0, b1, b2, b3].flatMap bitString ++ [false]) = bytesGroup b0 b1 b2 b3 := by
  apply BitVec.eq_of_toNat_eq
  simp only [parseBits_toNat, List.flatMap_cons, List.flatMap_nil, bitsValue_append, bitsValue_cons, bitsValue_nil,
    bitsValue_bitString, bytesGroup_toNat, Bool.toNat_false]
  omega

/-- SPL's three chunks of a group are the words of `PACK4`. -/
theorem splGroupWords_four (b0 b1 b2 b3 : Byte) :
    splGroupWords [b0, b1, b2, b3] =
      some [(pack4 b0 b1 b2 b3).w0, (pack4 b0 b1 b2 b3).w1, (pack4 b0 b1 b2 b3).w2] := by
  rw [splGroupWords, parseBits_bytes]
  rfl

/-- SPL's steps 3 to 5 on full groups are `packGroups`: each step of the recursion takes off one group. -/
theorem splGroups_eq_packGroups : ∀ p : List Byte,
    (mapAll splGroupWords (chunks 4 (p.length / 4) p)).map List.flatten = some (packGroups p)
  | [] | [_] | [_, _] | [_, _, _] => by simp [chunks, mapAll, packGroups]
  | b0 :: b1 :: b2 :: b3 :: rest => by
    have ih := splGroups_eq_packGroups rest
    have hlen : (b0 :: b1 :: b2 :: b3 :: rest).length / 4 = rest.length / 4 + 1 := by
      simp only [List.length_cons]
      omega
    rw [hlen]
    obtain ⟨groups, hgroups, hflat⟩ := Option.map_eq_some_iff.1 ih
    simp only [chunks, List.take_succ_cons, List.take_zero, List.drop_succ_cons, List.drop_zero, mapAll,
      splGroupWords_four, hgroups, Option.map_some, List.flatten_cons, hflat, packGroups, List.cons_append,
      List.nil_append]

theorem splDataWords_of_full_groups {p : List Byte} (h : p.length % 4 = 0) :
    splDataWords p = some (packGroups p) := by
  have hgroups : groupBy 4 p = some (chunks 4 (p.length / 4) p) := if_pos ⟨by decide, h⟩
  rw [splDataWords, hgroups]
  exact splGroups_eq_packGroups p

/-! ### The decoder's pipeline -/

/-- A split takes off the leading chunk of a vector. -/
theorem splitEvery_append {n L : Nat} (hn : 1 ≤ n) (hL : L % n = 0) (g : BitVec n) (v : BitVec L) :
    splitEvery n (g ++ v) = (splitEvery n v).map (g :: ·) := by
  have hcount : (n + L) / n = L / n + 1 := Nat.add_div_left L hn
  have hhead : (g ++ v).extractLsb' (n + L - n - 0 * n) n = g := by
    rw [Nat.zero_mul, Nat.sub_zero, Nat.add_sub_cancel_left, BitVec.extractLsb'_append_eq_left]
  have htail : ∀ j ∈ List.range (L / n), (g ++ v).extractLsb' (n + L - n - (j + 1) * n) n =
      v.extractLsb' (L - n - j * n) n := by
    intro j hj
    have hfits : (j + 1) * n ≤ L := (Nat.le_div_iff_mul_le hn).1 (List.mem_range.1 hj)
    rw [Nat.add_one_mul] at hfits ⊢
    rw [show n + L - n - (j * n + n) = L - n - j * n by omega, BitVec.extractLsb'_append_eq_of_add_le (by omega)]
  rw [splitEvery, if_pos ⟨hn, by rw [Nat.add_mod_left, hL]⟩, splitEvery, if_pos ⟨hn, hL⟩, hcount,
    List.range_succ_eq_map, List.map_cons, List.map_map, hhead]
  exact congrArg (fun tail => some (g :: tail)) (List.map_congr_left htail)

/-- The groups of R69, three words at a time. -/
def wordGroups : List Index → List Group
  | w0 :: w1 :: w2 :: rest => wordsGroup w0 w1 w2 :: wordGroups rest
  | _ => []

/-- The one long bit string, re-split into 33-bit chunks, gives the groups of R69: a split takes off the group of the first
three words. -/
theorem splitEvery_words : ∀ (ws : List Index) {L : Nat}, ws.length % 3 = 0 → L = (ws.flatMap bitString).length →
    splitEvery 33 (parseBits L (ws.flatMap bitString)) = some (wordGroups ws)
  | [], _, _, rfl => rfl
  | w0 :: w1 :: w2 :: rest, L, h, hL => by
    have hrest : rest.length % 3 = 0 := by
      simp only [List.length_cons] at h
      omega
    have hbits : (rest.flatMap bitString).length % 33 = 0 := by
      simp only [List.length_flatMap, bitString_length, List.map_const', List.sum_replicate, smul_eq_mul]
      omega
    have hgroup : bitsValue 0 (bitString w0 ++ bitString w1 ++ bitString w2) = (wordsGroup w0 w1 w2).toNat := by
      simp only [bitsValue_append, bitsValue_bitString, wordsGroup_toNat]
      omega
    have hsplit : (w0 :: w1 :: w2 :: rest).flatMap bitString =
        (bitString w0 ++ bitString w1 ++ bitString w2) ++ rest.flatMap bitString := by
      simp only [List.flatMap_cons, List.append_assoc]
    obtain rfl : L = 33 + (rest.flatMap bitString).length := by
      rw [hL, hsplit]
      simp only [List.length_append, bitString_length]
    rw [hsplit, parseBits_append hgroup rfl, splitEvery_append (by decide) hbits, splitEvery_words rest hrest rfl]
    rfl

/-- A byte of a chunk without its last bit is a slice of the chunk, one bit higher. -/
theorem extractLsb'_payload (chunk : Group) {lo : Nat} (h : lo + 8 ≤ 32) :
    (chunk.extractLsb 32 1).extractLsb' lo 8 = chunk.extractLsb' (lo + 1) 8 := by
  apply BitVec.eq_of_getLsbD_eq
  intro j hj
  simp only [BitVec.extractLsb, BitVec.getLsbD_extractLsb', hj, decide_true, Bool.true_and,
    decide_eq_true (show lo + j < 32 - 1 + 1 by omega)]
  congr 1
  omega

/-- SPL's four substrings of a 33-bit chunk without its last bit are the bytes of `UNPACK3`. -/
theorem splChunkBytes_wordsGroup (w0 w1 w2 : Index) :
    splChunkBytes (wordsGroup w0 w1 w2) =
      some [(unpack3 w0 w1 w2).b0, (unpack3 w0 w1 w2).b1, (unpack3 w0 w1 w2).b2, (unpack3 w0 w1 w2).b3] := by
  have payload {lo : Nat} (h : lo + 8 ≤ 32) := extractLsb'_payload (wordsGroup w0 w1 w2) h
  change some [BitVec.extractLsb' 24 8 _, BitVec.extractLsb' 16 8 _, BitVec.extractLsb' 8 8 _,
    BitVec.extractLsb' 0 8 _] = _
  rw [payload (by decide), payload (by decide), payload (by decide), payload (by decide)]
  rfl

theorem splChunks_eq_unpackGroups : ∀ ws : List Index,
    (mapAll splChunkBytes (wordGroups ws)).map List.flatten = some (unpackGroups ws)
  | [] | [_] | [_, _] => by simp [wordGroups, mapAll, unpackGroups]
  | w0 :: w1 :: w2 :: rest => by
    obtain ⟨groups, hgroups, hflat⟩ := Option.map_eq_some_iff.1 (splChunks_eq_unpackGroups rest)
    simp only [wordGroups, mapAll, splChunkBytes_wordsGroup, hgroups, Option.map_some, List.flatten_cons, hflat,
      unpackGroups, List.cons_append, List.nil_append]

/-! ### The statements -/

/-- Settles O28: each byte is put together again from its two slices. -/
theorem unpack3UndoesPack4 : Obligations.Unpack3UndoesPack4 :=
  unpack3_pack4

/-- Settles O29: of the 33 bits only the pad bit is not in the bytes. -/
theorem pack4AfterUnpack3ClearsThePadBit : Obligations.Pack4AfterUnpack3ClearsThePadBit :=
  ⟨fun w0 w1 w2 => ⟨pack4_unpack3 w0 w1 w2, sub_and_one_eq_self_iff w2⟩, fun _ _ _ _ _ _ _ _ => pack4_inj,
    unpack3_bytes_eq_iff⟩

/-- Settles O31: the padding makes every group full. -/
theorem encoderRegroupsAsSplsBitStrings : Obligations.EncoderRegroupsAsSplsBitStrings :=
  fun b => splDataWords_of_full_groups (by rw [padBytes_length, Nat.mul_mod_right])

/-- Settles O32: the long bit string splits into the groups of three words, and each group into the bytes of `UNPACK3`. -/
theorem decoderRegroupsAsSplsBitStrings : Obligations.DecoderRegroupsAsSplsBitStrings := by
  intro ws h
  simp only [splPaddedBytes, splitEvery_words ws h rfl]
  exact splChunks_eq_unpackGroups ws

end Sys2Proof.Machine

/-! ## The encoder: full groups and the padded last one (42_encoder.md R96, R101) -/

namespace Sys2Proof.Machine

/-- Full groups are padded with nothing, and do not change the padding of what follows. -/
theorem padBytes_append {a : List Byte} (h : a.length % 4 = 0) (l : List Byte) : padBytes (a ++ l) = a ++ padBytes l := by
  rw [padBytes_eq, padBytes_eq, List.append_assoc, List.length_append, Nat.add_mod, h, Nat.zero_add, Nat.mod_mod]

theorem packGroups_append : ∀ {a : List Byte}, a.length % 4 = 0 → ∀ p : List Byte,
    packGroups (a ++ p) = packGroups a ++ packGroups p
  | [], _, _ => rfl
  | b0 :: b1 :: b2 :: b3 :: rest, h, p => by
    have hrest : rest.length % 4 = 0 := by
      simp only [List.length_cons] at h
      omega
    simp only [List.cons_append, packGroups, packGroups_append hrest p]

/-- Every third word of packed bytes ends in the appended `0` (R68). -/
theorem packGroups_third_even : ∀ (p : List Byte) (k : Nat) {w : Index}, (packGroups p)[3 * k + 2]? = some w →
    w.toNat % 2 = 0
  | [], _, _, h | [_], _, _, h | [_, _], _, _, h | [_, _, _], _, _, h => by simp [packGroups] at h
  | b0 :: b1 :: b2 :: b3 :: rest, 0, _, h => by
    cases h
    exact pack4_w2_even b0 b1 b2 b3
  | _ :: _ :: _ :: _ :: rest, k + 1, _, h => packGroups_third_even rest k h

/-- The data words of `ENCODE(b)` are all words before its last. -/
theorem encodeBytes_getElem?_data (b : List Byte) {j : Nat} (h : j < 3 * ((b.length + 3) / 4)) :
    (encodeBytes b)[j]? = (packGroups (padBytes b))[j]? :=
  List.getElem?_append_left (by rwa [packGroups_padBytes_length])

/-- `ENCODE` after full groups: only what follows them is padded. -/
theorem encodeBytes_append {a : List Byte} (h : a.length % 4 = 0) (l : List Byte) :
    encodeBytes (a ++ l) = packGroups a ++ (packGroups (padBytes l) ++ [encodeCheckWord (a ++ l)]) := by
  rw [encodeBytes, padBytes_append h, packGroups_append h, List.append_assoc]

/-- The words after those of `k` full groups. -/
theorem encodeBytes_getElem?_last {a : List Byte} {k : Nat} (h : a.length = 4 * k) (l : List Byte) (i : Nat) :
    (encodeBytes (a ++ l))[3 * k + i]? = (packGroups (padBytes l) ++ [encodeCheckWord (a ++ l)])[i]? := by
  have hlen : (packGroups a).length = 3 * k := by
    rw [packGroups_length]
    omega
  rw [encodeBytes_append (by omega), List.getElem?_append_right (by omega), hlen, Nat.add_sub_cancel_left]

/-- A byte sequence is full groups and a rest shorter than a group. -/
theorem exists_full_groups_append (b : List Byte) :
    ∃ a l, b = a ++ l ∧ a.length = 4 * (b.length / 4) ∧ l.length = b.length % 4 :=
  ⟨b.take (4 * (b.length / 4)), b.drop (4 * (b.length / 4)), (List.take_append_drop ..).symm,
    by rw [List.length_take]; omega, by rw [List.length_drop]; omega⟩

/-- A group of one byte and three zero bytes (R101 item 5). -/
theorem pack4_one_byte (x : Byte) : pack4 x 0#8 0#8 0#8 = ⟨(pack4 x 0#8 0#8 0#8).w0, 0#11, 0#11⟩ := by
  refine Words3.eq_mk rfl ?_ ?_
  · rw [pack4_w1_toNat]; rfl
  · rw [pack4_w2_toNat]; rfl

/-- A group of two bytes and two zero bytes (R101 item 5). -/
theorem pack4_two_bytes_w2 (x y : Byte) : (pack4 x y 0#8 0#8).w2 = 0#11 :=
  BitVec.eq_of_toNat_eq (by rw [pack4_w2_toNat]; rfl)

/-- Settles O39: a data word at a third place ends in the appended `0`, and the last group is packed with zero bytes in the
places that the rest of the byte sequence leaves. -/
theorem encoderOutputShowsItsPadding : Obligations.EncoderOutputShowsItsPadding := by
  refine fun b => ⟨fun k w hk hw => ?_, fun a x hb hmod => ?_, fun hmod => ?_, fun hmod => ?_⟩
  · rw [encodeBytes_getElem?_data b (by omega)] at hw
    exact packGroups_third_even _ k hw
  · subst hb
    have ha : a.length % 4 = 0 := by
      rw [List.length_append, List.length_singleton] at hmod
      omega
    have hdrop : dropCnt (a ++ [x]).length = 3#2 := by
      rw [dropCnt, hmod]
    have hlast : packGroups (padBytes [x]) = [(pack4 x 0#8 0#8 0#8).w0, 0#11, 0#11] := by
      show packGroups [x, 0#8, 0#8, 0#8] = _
      rw [packGroups, pack4_one_byte]
      rfl
    refine ⟨(pack4 x 0#8 0#8 0#8).w0, pack4_w0_toNat .., ?_⟩
    rw [encodeBytes_append ha, hlast, encodeCheckWord, hdrop]
    rfl
  · obtain ⟨a, l, hb, ha, hl⟩ := exists_full_groups_append b
    obtain ⟨x, y, rfl⟩ := List.length_eq_two.1 (hl.trans hmod)
    have hwords := encodeBytes_getElem?_last ha [x, y]
    rw [← hb] at hwords
    refine ⟨(pack4 x y 0#8 0#8).w1, ?_, ?_, ?_⟩
    · rw [pack4_w1_toNat]
      show (y.toNat % 32 * 64 + 0 / 4) % 64 = 0
      omega
    · exact hwords 1
    · exact (hwords 2).trans (congrArg some (pack4_two_bytes_w2 x y))
  · obtain ⟨a, l, hb, ha, hl⟩ := exists_full_groups_append b
    obtain ⟨x, y, z, rfl⟩ := List.length_eq_three.1 (hl.trans hmod)
    have hwords := encodeBytes_getElem?_last ha [x, y, z]
    rw [← hb] at hwords
    refine ⟨(pack4 x y z 0#8).w2, ?_, hwords 2⟩
    rw [pack4_w2_toNat]
    show (z.toNat % 4 * 512 + 0 * 2) % 512 = 0
    omega

end Sys2Proof.Machine

/-! ## The decoder: round trip, accepted sequences and lengths (43_decoder.md R117 to R127) -/

namespace Sys2Proof.Machine

/-! ### Unpacking -/

/-- Words `3k .. 3k+2` give the bytes of group `k`, in order (R117). Each step of the induction takes off the first group; a
sequence without a full first group has no element at the last of the three positions. -/
theorem unpackGroups_getElem? {ws : List Index} {k : Nat} {w0 w1 w2 : Index} (h0 : ws[3 * k]? = some w0)
    (h1 : ws[3 * k + 1]? = some w1) (h2 : ws[3 * k + 2]? = some w2) :
    (unpackGroups ws)[4 * k]? = some (unpack3 w0 w1 w2).b0 ∧
    (unpackGroups ws)[4 * k + 1]? = some (unpack3 w0 w1 w2).b1 ∧
    (unpackGroups ws)[4 * k + 2]? = some (unpack3 w0 w1 w2).b2 ∧
    (unpackGroups ws)[4 * k + 3]? = some (unpack3 w0 w1 w2).b3 := by
  induction k generalizing ws with
  | zero =>
    match ws with
    | v0 :: v1 :: v2 :: rest =>
      obtain rfl : v0 = w0 := Option.some.inj h0
      obtain rfl : v1 = w1 := Option.some.inj h1
      obtain rfl : v2 = w2 := Option.some.inj h2
      exact ⟨rfl, rfl, rfl, rfl⟩
  | succ k ih =>
    match ws with
    | _ :: _ :: _ :: rest => exact ih (ws := rest) h0 h1 h2

/-- The pad bit of a group is not in its bytes (R69). -/
theorem unpackGroups_set_xor_one : ∀ (ws : List Index) (k : Nat) {w : Index}, ws[3 * k + 2]? = some w →
    unpackGroups (ws.set (3 * k + 2) (w ^^^ 1#11)) = unpackGroups ws
  | [], _, _, h | [_], 0, _, h | [_], _ + 1, _, h | [_, _], 0, _, h | [_, _], _ + 1, _, h => by simp at h
  | w0 :: w1 :: w2 :: rest, 0, _, h => by
    cases h
    show unpackGroups (w0 :: w1 :: (w2 ^^^ 1#11) :: rest) = _
    simp only [unpackGroups, unpack3_xor_one]
  | w0 :: w1 :: w2 :: rest, k + 1, w, h => by
    show unpackGroups (w0 :: w1 :: w2 :: rest.set (3 * k + 2) (w ^^^ 1#11)) = _
    simp only [unpackGroups, unpackGroups_set_xor_one rest k h]

/-- Group by group, `UNPACK3` undoes `PACK4` (R70). -/
theorem unpackGroups_packGroups : ∀ {p : List Byte}, p.length % 4 = 0 → unpackGroups (packGroups p) = p
  | [], _ => rfl
  | b0 :: b1 :: b2 :: b3 :: rest, h => by
    have hrest : rest.length % 4 = 0 := by
      simp only [List.length_cons] at h
      omega
    simp only [packGroups, unpackGroups, unpack3_pack4, unpackGroups_packGroups hrest]

theorem padBytes_length_mod (b : List Byte) : (padBytes b).length % 4 = 0 := by
  rw [padBytes_length, Nat.mul_mod_right]

/-- Dropping at most the padding leaves the bytes and the rest of the padding (R118). -/
theorem padBytes_take (b : List Byte) {d : Nat} (h : d ≤ (dropCnt b.length).toNat) :
    (padBytes b).take ((padBytes b).length - d) = b ++ List.replicate ((dropCnt b.length).toNat - d) 0#8 := by
  have hlen : (padBytes b).length - d = b.length + ((dropCnt b.length).toNat - d) := by
    rw [padBytes, List.length_append, List.length_replicate]
    omega
  rw [hlen, padBytes, List.take_append, List.take_of_length_le (by omega), Nat.add_sub_cancel_left,
    List.take_replicate, Nat.min_eq_left (by omega)]

/-! ### `DECODE` of packed bytes -/

section
variable {p : List Byte} {d : DropCount} {c : Checksum}

/-- Known words in full groups before a check-word pass steps 1 to 4. -/
theorem decodeWords_of_known {ws : List Index} (h : ws.length % 3 = 0) (d : DropCount) (c : Checksum) :
    decodeWords ((ws ++ [ckEnc d c]).map knownEntry) = verifyGroups ws d c := by
  have hknown : ∀ e ∈ ws.map knownEntry, e.unk = false := by
    intro e he
    obtain ⟨i, -, rfl⟩ := List.mem_map.1 he
    rfl
  have hidx : (ws.map knownEntry).map Entry.idx = ws := by
    rw [List.map_map]
    exact List.map_id ws
  have hcheck := decodeWords_of_known_check (data := ws.map knownEntry) (ck := knownEntry (ckEnc d c)) rfl
  rw [show (knownEntry (ckEnc d c)).idx = ckEnc d c from rfl, ckDec_ckEnc,
    decodeData_of_full_groups hknown (by rwa [List.length_map]), hidx] at hcheck
  rw [List.map_append, ← hcheck]
  rfl

theorem candidate_packGroups (h : p.length % 4 = 0) (d : DropCount) :
    candidate (packGroups p) d = p.take (p.length - d.toNat) := by
  rw [candidate, unpackGroups_packGroups h]

theorem packGroups_length_mod (p : List Byte) : (packGroups p).length % 3 = 0 := by
  rw [packGroups_length, Nat.mul_mod_right]

/-- Packed bytes decode to themselves without the dropped ones, when the check-word has the checksum of those
(R123 item 2). -/
theorem decodeWords_packGroups (h : p.length % 4 = 0) (hc : csum (p.take (p.length - d.toNat)) = c) :
    decodeWords ((packGroups p ++ [ckEnc d c]).map knownEntry) =
      ⟨.ok (p.take (p.length - d.toNat)), ⟨d, c, c, 0⟩⟩ := by
  rw [← candidate_packGroups h] at hc ⊢
  rw [decodeWords_of_known (packGroups_length_mod p), verifyGroups_of_csum_eq hc]

/-- With another checksum they are a mismatch with both values surfaced (R119, R124). -/
theorem decodeWords_packGroups_mismatch (h : p.length % 4 = 0) (hc : csum (p.take (p.length - d.toNat)) ≠ c) :
    decodeWords ((packGroups p ++ [ckEnc d c]).map knownEntry) =
      ⟨.fail .checksumMismatch, ⟨d, c, csum (p.take (p.length - d.toNat)), 0⟩⟩ := by
  rw [← candidate_packGroups h] at hc ⊢
  rw [decodeWords_of_known (packGroups_length_mod p), verifyGroups_of_csum_ne hc]

end

/-- Padded bytes with a drop field that is not too high: the padding that is not dropped is part of the result. -/
theorem decodeWords_padBytes (b : List Byte) {d : DropCount} (h : d.toNat ≤ (dropCnt b.length).toNat) :
    decodeWords ((packGroups (padBytes b) ++ [ckEnc d (csum b)]).map knownEntry) =
      ⟨.ok (b ++ List.replicate ((dropCnt b.length).toNat - d.toNat) 0#8), ⟨d, csum b, csum b, 0⟩⟩ := by
  rw [← padBytes_take b h]
  exact decodeWords_packGroups (padBytes_length_mod b) (by rw [padBytes_take b h, csum_append_zeros])

/-- The round trip (R122). -/
theorem decodeWords_encodeBytes (b : List Byte) :
    decodeWords ((encodeBytes b).map knownEntry) = ⟨.ok b, encByProducts b⟩ := by
  have h := decodeWords_padBytes b (Nat.le_refl (dropCnt b.length).toNat)
  rwa [Nat.sub_self, List.replicate_zero, List.append_nil] at h

theorem encodeBytes_inj {a b : List Byte} (h : encodeBytes a = encodeBytes b) : a = b := by
  have hdec := decodeWords_encodeBytes a
  rw [h, decodeWords_encodeBytes] at hdec
  exact (Verdict.ok.inj (congrArg Decoded.verdict hdec)).symm

/-- A sequence that decodes to `b` and is not `ENCODE(b)` is no encoding at all: decoding names the only candidate. -/
theorem encodeBytes_ne_of_decodes {ws : List Index} {b : List Byte}
    (h : (decodeWords (ws.map knownEntry)).verdict = .ok b) (hne : encodeBytes b ≠ ws) (a : List Byte) :
    encodeBytes a ≠ ws := by
  rintro rfl
  rw [decodeWords_encodeBytes] at h
  exact hne (congrArg encodeBytes (Verdict.ok.inj h).symm)

/-! ### `DECODE` in general -/

/-- Steps 3 to 7 look at the flags and at the unpacked bytes only. -/
theorem decodeData_congr {data data' : List Entry} (hunk : data.map Entry.unk = data'.map Entry.unk)
    (hbytes : unpackGroups (data.map Entry.idx) = unpackGroups (data'.map Entry.idx)) (d : DropCount) (c : Checksum) :
    decodeData data d c = decodeData data' d c := by
  have hlen : data.length = data'.length := by simpa using congrArg List.length hunk
  have hfirst : data.findIdx? Entry.unk = data'.findIdx? Entry.unk := by
    have := congrArg (List.findIdx? id) hunk
    rwa [List.findIdx?_map, List.findIdx?_map] at this
  have hverify : verifyGroups (data.map Entry.idx) d c = verifyGroups (data'.map Entry.idx) d c := by
    have hcand : candidate (data.map Entry.idx) d = candidate (data'.map Entry.idx) d := by
      rw [candidate, hbytes, candidate]
    rw [verifyGroups, hcand, verifyGroups]
  rw [decodeData, decodeData, hfirst, hlen, hverify]

/-- Flipping a pad bit leaves every flag and every byte (R123 item 1). -/
theorem decodeWords_set_xor_one {data : List Entry} {e : Entry} {k : Nat} (h : data[3 * k + 2]? = some e) (ck : Entry) :
    decodeWords (data.set (3 * k + 2) ⟨e.unk, e.idx ^^^ 1#11⟩ ++ [ck]) = decodeWords (data ++ [ck]) := by
  have hflags (f : Entry) (hf : f.unk = e.unk) : (data.set (3 * k + 2) f).map Entry.unk = data.map Entry.unk := by
    obtain ⟨hlt, rfl⟩ := List.getElem?_eq_some_iff.1 h
    rw [List.map_set, hf, ← List.getElem_map Entry.unk (h := by rwa [List.length_map]), List.set_getElem_self]
  have hidx : (data.map Entry.idx)[3 * k + 2]? = some e.idx := by rw [List.getElem?_map, h, Option.map_some]
  have hbytes : unpackGroups ((data.set (3 * k + 2) ⟨e.unk, e.idx ^^^ 1#11⟩).map Entry.idx) =
      unpackGroups (data.map Entry.idx) := by
    rw [List.map_set]
    exact unpackGroups_set_xor_one _ k hidx
  rw [decodeWords_snoc, decodeWords_snoc, List.length_set, decodeData_congr (hflags ⟨e.unk, e.idx ^^^ 1#11⟩ rfl) hbytes]

/-- What `DECODE` can answer: the three failures, with a position only where a word is unknown, and the candidate bytes of
full groups. -/
theorem decodeWords_cases (w : List Entry) :
    (∃ r, decodeWords w = ⟨.fail .malformedInput, r⟩ ∧ r.epos = 0) ∨
    (∃ r, decodeWords w = ⟨.fail .unknownWord, r⟩ ∧ r.epos < w.length) ∨
    (∃ r, decodeWords w = ⟨.fail .checksumMismatch, r⟩ ∧ r.epos = 0) ∨
    (∃ data ck r, w = data ++ [ck] ∧ data.length % 3 = 0 ∧
      decodeWords w = ⟨.ok (candidate (data.map Entry.idx) r.drop), r⟩ ∧ r.epos = 0) := by
  obtain rfl | ⟨data, ck, rfl⟩ := List.eq_nil_or_concat' w
  · exact .inl ⟨_, decodeWords_nil, rfl⟩
  rcases hck : ck.unk with _ | _
  case true => exact .inr (.inl ⟨_, decodeWords_of_unknown_check hck, by simp⟩)
  rcases hfirst : data.findIdx? Entry.unk with _ | i
  case some =>
    have hlt : i < data.length := (List.findIdx?_eq_some_iff_findIdx_eq.1 hfirst).1
    refine .inr (.inl ⟨_, by rw [decodeWords_of_known_check hck, decodeData, hfirst], ?_⟩)
    rw [List.length_append]
    exact Nat.lt_add_right 1 hlt
  have hknown : ∀ e ∈ data, e.unk = false := by simpa using List.findIdx?_eq_none_iff.1 hfirst
  by_cases hcount : data.length % 3 = 0
  case neg => exact .inl ⟨_, by rw [decodeWords_of_known_check hck, decodeData_of_bad_count hknown hcount], rfl⟩
  have hverify := (decodeWords_of_known_check (data := data) hck).trans (decodeData_of_full_groups hknown hcount _ _)
  by_cases hcsum : csum (candidate (data.map Entry.idx) (ckDec ck.idx).1) = (ckDec ck.idx).2
  · exact .inr (.inr (.inr ⟨data, ck, ⟨(ckDec ck.idx).1, (ckDec ck.idx).2, (ckDec ck.idx).2, 0⟩, rfl, hcount,
      hverify.trans (verifyGroups_of_csum_eq hcsum), rfl⟩))
  · exact .inr (.inr (.inl ⟨_, hverify.trans (verifyGroups_of_csum_ne hcsum), rfl⟩))

/-! ### Successful and failing answers -/

section
variable {w : List Entry} {r : ByProducts}

/-- The bytes of a successful answer are the candidate of full groups. -/
theorem decodeWords_ok {cand : List Byte} (h : decodeWords w = ⟨.ok cand, r⟩) :
    ∃ data ck, w = data ++ [ck] ∧ data.length % 3 = 0 ∧ cand = candidate (data.map Entry.idx) r.drop ∧ r.epos = 0 := by
  obtain ⟨_, hw, -⟩ | ⟨_, hw, -⟩ | ⟨_, hw, -⟩ | ⟨data, ck, r', happ, hcount, hw, hpos⟩ := decodeWords_cases w <;>
    cases h.symm.trans hw
  exact ⟨data, ck, happ, hcount, rfl, hpos⟩

theorem decodeWords_ok_epos {cand : List Byte} (h : decodeWords w = ⟨.ok cand, r⟩) : r.epos = 0 := by
  obtain ⟨_, _, -, -, -, hpos⟩ := decodeWords_ok h
  exact hpos

/-- The length of a result (R127). -/
theorem decodeWords_ok_length {cand : List Byte} (h : decodeWords w = ⟨.ok cand, r⟩) :
    cand.length = 4 * ((w.length - 1) / 3) - r.drop.toNat := by
  obtain ⟨data, ck, rfl, hcount, rfl, -⟩ := decodeWords_ok h
  rw [candidate_eq, List.length_take, unpackGroups_length, List.length_map, List.length_append, List.length_singleton,
    Nat.add_sub_cancel, Nat.min_eq_left (Nat.sub_le _ _)]

/-- The position that a failure reports is that of a word, and is 0 unless the failure is an unknown word (R27). -/
theorem decodeWords_fail_epos {kind : ErrorKind} (h : decodeWords w = ⟨.fail kind, r⟩) :
    (kind = .unknownWord ∧ r.epos < w.length) ∨ (kind ≠ .unknownWord ∧ r.epos = 0) := by
  obtain ⟨_, hw, hpos⟩ | ⟨_, hw, hpos⟩ | ⟨_, hw, hpos⟩ | ⟨_, _, _, -, -, hw, -⟩ := decodeWords_cases w <;>
    cases h.symm.trans hw
  · exact .inr ⟨by decide, hpos⟩
  · exact .inl ⟨rfl, hpos⟩
  · exact .inr ⟨by decide, hpos⟩

end

/-! ### The capacities suffice (R100, R121) -/

theorem encodeBytes_length_le {g : Nat} {b : List Byte} (h : b.length ≤ 4 * g) : (encodeBytes b).length ≤ 3 * g + 1 := by
  rw [encodeBytes_length]
  omega

theorem decodeWords_ok_length_le {g : Nat} {w : List Entry} {cand : List Byte} {r : ByProducts}
    (hw : w.length ≤ 3 * g + 1) (h : decodeWords w = ⟨.ok cand, r⟩) : cand.length ≤ 4 * g := by
  rw [decodeWords_ok_length h]
  omega

/-! ### The accepted sequences of R123 that are no encoding -/

/-- The empty group sequence with any drop field (R123 item 4). -/
theorem decodeWords_lone_checkWord (d : DropCount) :
    decodeWords ([ckEnc d 0#9].map knownEntry) = ⟨.ok [], ⟨d, 0#9, 0#9, 0⟩⟩ := by
  have h := decodeWords_packGroups (p := []) (d := d) (c := 0#9) rfl (by rw [List.take_nil]; rfl)
  rw [List.take_nil] at h
  exact h

theorem encodeBytes_ne_lone_checkWord {d : DropCount} (hd : d ≠ 0#2) (a : List Byte) : encodeBytes a ≠ [ckEnc d 0#9] := by
  refine encodeBytes_ne_of_decodes (congrArg Decoded.verdict (decodeWords_lone_checkWord d)) (fun h => hd ?_) a
  have hck : ckEnc 0#2 0#9 = ckEnc d 0#9 := (List.cons.inj h).1
  exact (ckEnc_inj hck).1.symm

/-- An encoding with one pad bit flipped decodes as before (R123 item 1). -/
theorem decodeWords_encodeBytes_set_xor_one {b : List Byte} {k : Nat} {w : Index} (hk : k < (b.length + 3) / 4)
    (hw : (encodeBytes b)[3 * k + 2]? = some w) :
    (decodeWords (((encodeBytes b).set (3 * k + 2) (w ^^^ 1#11)).map knownEntry)).verdict = .ok b := by
  have hlt : 3 * k + 2 < (packGroups (padBytes b)).length := by
    rw [packGroups_padBytes_length]
    omega
  rw [encodeBytes_getElem?_data b (by omega)] at hw
  have hdata : ((packGroups (padBytes b)).map knownEntry)[3 * k + 2]? = some (knownEntry w) := by
    rw [List.getElem?_map, hw, Option.map_some]
  have hflip := decodeWords_set_xor_one hdata (knownEntry (encodeCheckWord b))
  have hround := decodeWords_encodeBytes b
  rw [encodeBytes, List.map_append] at hround
  rw [encodeBytes, List.set_append_left _ _ hlt, List.map_append, List.map_set]
  exact congrArg Decoded.verdict (hflip.trans hround)

theorem encodeBytes_ne_set_xor_one {b : List Byte} {k : Nat} {w : Index} (hk : k < (b.length + 3) / 4)
    (hw : (encodeBytes b)[3 * k + 2]? = some w) (a : List Byte) :
    encodeBytes a ≠ (encodeBytes b).set (3 * k + 2) (w ^^^ 1#11) := by
  refine encodeBytes_ne_of_decodes (decodeWords_encodeBytes_set_xor_one hk hw) (fun h => ?_) a
  have hlt := (List.getElem?_eq_some_iff.1 hw).1
  have hflipped : ((encodeBytes b).set (3 * k + 2) (w ^^^ 1#11))[3 * k + 2]? = some (w ^^^ 1#11) :=
    List.getElem?_set_self hlt
  rw [← h, hw] at hflipped
  exact xor_one_ne_self w (Option.some.inj hflipped).symm

/-- Packed bytes of which a byte that is not 0 is dropped are no encoding (R123 item 2): the encoding of the others is padded
with zero bytes in its place. -/
theorem encodeBytes_ne_of_dropped_byte {p : List Byte} {d : DropCount} (hp : p.length % 4 = 0)
    (hdropped : ∃ x ∈ p.drop (p.length - d.toNat), x ≠ 0#8) (a : List Byte) :
    encodeBytes a ≠ packGroups p ++ [ckEnc d (csum (p.take (p.length - d.toNat)))] := by
  refine encodeBytes_ne_of_decodes (congrArg Decoded.verdict (decodeWords_packGroups hp rfl)) (fun h => ?_) a
  have hwords := List.append_inj_left' h rfl
  have hpad := congrArg unpackGroups hwords
  rw [unpackGroups_packGroups (padBytes_length_mod _), unpackGroups_packGroups hp] at hpad
  have hrest := List.append_cancel_left ((List.take_append_drop (p.length - d.toNat) p).trans hpad.symm)
  obtain ⟨x, hx, hne⟩ := hdropped
  rw [hrest] at hx
  exact hne (List.eq_of_mem_replicate hx)

/-- With a lower drop field, some of the padding counts as bytes (R123 item 3): the sequence is the encoding of the longer
byte sequence. -/
theorem encodeBytes_append_zeros (b : List Byte) {d : DropCount} (hd : d.toNat < (dropCnt b.length).toNat) :
    encodeBytes (b ++ List.replicate ((dropCnt b.length).toNat - d.toNat) 0#8) =
      packGroups (padBytes b) ++ [ckEnc d (csum b)] := by
  have hdrop : dropCnt (b ++ List.replicate ((dropCnt b.length).toNat - d.toNat) 0#8).length = d := by
    apply BitVec.eq_of_toNat_eq
    rw [List.length_append, List.length_replicate]
    rw [dropCnt_toNat] at *
    rw [dropCnt_toNat]
    omega
  have hpad : padBytes (b ++ List.replicate ((dropCnt b.length).toNat - d.toNat) 0#8) = padBytes b := by
    rw [padBytes, hdrop, List.append_assoc, List.replicate_append_replicate, Nat.sub_add_cancel (Nat.le_of_lt hd), padBytes]
  rw [encodeBytes, hpad, encodeCheckWord, hdrop, csum_append_zeros]

end Sys2Proof.Machine

/-! ## The statements about the decoder and the round trip (42_encoder.md R100, R101, 43_decoder.md R117 to R127) -/

namespace Sys2Proof.Machine

/-- For each length of at least 1 the group count and the drop count are determined (R127). -/
theorem groups_and_drop_iff {n : Nat} (hn : 1 ≤ n) (G : Nat) (d : DropCount) :
    1 ≤ G ∧ 4 * G - d.toNat = n ↔ G = (n + 3) / 4 ∧ d = dropCnt n := by
  rw [← BitVec.toNat_inj, dropCnt_toNat]
  omega

/-- Settles O45: unpacking undoes packing, the drop field is the padding and the checksum that of the bytes; `ENC` then
leaves exactly that for `DEC`. -/
theorem decodeUndoesEncode : Obligations.DecodeUndoesEncode :=
  ⟨fun b => congrArg Decoded.verdict (decodeWords_encodeBytes b), fun s =>
    ⟨_, _, rfl, exec_dec_of_ok (decodeWords_encodeBytes s.bq), by simp [encByProducts]⟩⟩

/-- Settles O40: decoding names the bytes that were encoded. -/
theorem encodeIsInjective : Obligations.EncodeIsInjective :=
  fun _ _ => encodeBytes_inj

/-- Settles O44: three words at a time, by induction on the group. -/
theorem unpackGroupsTakesWordsThreeAtATime : Obligations.UnpackGroupsTakesWordsThreeAtATime :=
  fun ws => ⟨unpackGroups_length ws, fun _ _ _ _ => unpackGroups_getElem?⟩

/-- Settles O46: each sequence is packed bytes with a check-word or an encoding with a pad bit flipped; where it is no
encoding, it is not that of the bytes it decodes to. -/
theorem nonCanonicalSequencesAreAccepted : Obligations.NonCanonicalSequencesAreAccepted := by
  refine ⟨?_, fun b k w ws hk hw hws => ?_, fun p d ws hp hws => ?_, fun b d ws hd hws => ?_, fun d hd => ?_⟩
  · have hpad : (decodeWords ([0#11, 0#11, 1#11, 0#11].map knownEntry)).verdict = .ok [0#8, 0#8, 0#8, 0#8] := by decide
    have hdrop : (decodeWords ([8#11, 128#11, 1544#11, 518#11].map knownEntry)).verdict = .ok [1#8, 2#8, 3#8] := by decide
    refine ⟨hpad, hdrop, by decide, by decide, by decide, by decide, fun a => ?_, by decide, by decide⟩
    simp only [List.mem_cons, List.not_mem_nil, or_false, not_or]
    exact ⟨encodeBytes_ne_of_decodes hpad (by decide) a, encodeBytes_ne_of_decodes hdrop (by decide) a,
      encodeBytes_ne_lone_checkWord (d := 1#2) (by decide) a, encodeBytes_ne_lone_checkWord (d := 2#2) (by decide) a,
      encodeBytes_ne_lone_checkWord (d := 3#2) (by decide) a⟩
  · subst hws
    exact ⟨decodeWords_encodeBytes_set_xor_one hk hw, encodeBytes_ne_set_xor_one hk hw⟩
  · subst hws
    exact ⟨congrArg Decoded.verdict (decodeWords_packGroups hp rfl), encodeBytes_ne_of_dropped_byte hp⟩
  · subst hws
    refine ⟨congrArg Decoded.verdict (decodeWords_padBytes b (Nat.le_of_lt hd)), fun h => ?_,
      (encodeBytes_append_zeros b hd).symm⟩
    have hck : [ckEnc d (csum b)] = [encodeCheckWord b] := List.append_cancel_left h
    obtain ⟨rfl, -⟩ := ckEnc_inj (List.cons.inj hck).1
    exact Nat.lt_irrefl _ hd
  · exact ⟨congrArg Decoded.verdict (decodeWords_lone_checkWord d), encodeBytes_ne_lone_checkWord hd⟩

/-- Settles O47: `DECODE` looks at the data words through their flags and their unpacked bytes, and neither has the pad
bit. -/
theorem padBitsNeverMatter : Obligations.PadBitsNeverMatter :=
  fun _ ck _ _ h => decodeWords_set_xor_one h ck

/-- Settles O48: with the same or a lower drop field the candidate is the bytes followed by zero bytes, which have the same
checksum; with a higher one the bytes 1, 2, 3, 4 with drop field 1 and the checksum of 1, 2, 3 are accepted. -/
theorem checksumFieldChangeIsDetected : Obligations.ChecksumFieldChangeIsDetected := by
  refine ⟨fun b d c hd hne => ?_, [1#8, 2#8, 3#8, 4#8], 1#2, 6#9, [1#8, 2#8, 3#8], by decide, by decide⟩
  have hcsum : csum ((padBytes b).take ((padBytes b).length - d.toNat)) = csum b := by
    rw [padBytes_take b hd, csum_append_zeros]
  have hfail := decodeWords_packGroups_mismatch (padBytes_length_mod b) (c := c) (hcsum ▸ hne.symm)
  rwa [hcsum] at hfail

/-- Settles O49: a result is the full groups without the dropped bytes. -/
theorem resultLengthFixesGroupsAndDropCount : Obligations.ResultLengthFixesGroupsAndDropCount :=
  ⟨fun _ _ _ => decodeWords_ok_length, fun _ G d hn => groups_and_drop_iff hn G d,
    fun d => congrArg Decoded.verdict (decodeWords_lone_checkWord d)⟩

/-- Settles O50: four bytes make three words, and three words at most four bytes. -/
theorem resultsAlwaysFit : Obligations.ResultsAlwaysFit :=
  ⟨fun _ _ => encodeBytes_length_le, fun _ _ _ _ => decodeWords_ok_length_le⟩

end Sys2Proof.Machine

/-! ## Safety: the invariants (10_state.md R27) -/

namespace Sys2Proof.Machine

/-! ### Every step keeps the invariants -/

section
variable {s t : State}

/-- What an update has to show for the invariants: the queues fit the capacity that stays, and `EPOS` is a position below
`WCAP` that is 0 unless a word is unknown. -/
theorem State.Inv.update (h : s.Inv) (hgmax : t.gmax = s.gmax) (hbq : t.bq.length ≤ s.bcap)
    (hwq : t.wq.length ≤ s.wcap) (hlt : t.epos < s.wcap) (hzero : t.err ≠ .unknownWord → t.epos = 0) : t.Inv where
  gmax_pos := hgmax ▸ h.gmax_pos
  bq_fits := by rwa [State.bcap, hgmax]
  wq_fits := by rwa [State.wcap, hgmax]
  epos_lt := by rwa [State.wcap, hgmax]
  epos_zero := hzero

theorem State.Inv.respond (h : s.Inv) (rc : Rc) (rdata : Word12) : (s.respond rc rdata).Inv :=
  h.update rfl h.bq_fits h.wq_fits h.epos_lt h.epos_zero

theorem State.Inv.setCommands (h : s.Inv) (q : List PortInput) : (s.setCommands q).Inv :=
  h.update rfl h.bq_fits h.wq_fits h.epos_lt h.epos_zero

theorem State.Inv.setBq (h : s.Inv) {q : List Byte} (hq : q.length ≤ s.bcap) : (s.setBq q).Inv :=
  h.update rfl hq h.wq_fits h.epos_lt h.epos_zero

theorem State.Inv.setWq (h : s.Inv) {q : List Entry} (hq : q.length ≤ s.wcap) : (s.setWq q).Inv :=
  h.update rfl h.bq_fits hq h.epos_lt h.epos_zero

theorem State.Inv.setResults (h : s.Inv) {e : Err} {r : ByProducts} (hlt : r.epos < s.wcap)
    (hzero : e ≠ .unknownWord → r.epos = 0) : (s.setResults e r).Inv :=
  h.update rfl h.bq_fits h.wq_fits hlt hzero

theorem State.wcap_pos (s : State) : 0 < s.wcap := Nat.succ_pos _

/-- A position 0 meets the invariants with any error. -/
theorem State.Inv.setResults_zero (h : s.Inv) (e : Err) {r : ByProducts} (hzero : r.epos = 0) : (s.setResults e r).Inv :=
  h.setResults (hzero ▸ s.wcap_pos) fun _ => hzero

theorem State.Inv.clearQueues (h : s.Inv) : ((s.setBq []).setWq []).Inv :=
  (h.setBq (Nat.zero_le _)).setWq (Nat.zero_le _)

theorem State.Inv.clearBlock (h : s.Inv) : s.clearBlock.Inv :=
  h.clearQueues.setResults_zero .none rfl

theorem execPushb_inv (h : s.Inv) {b : Byte} (hexec : execPushb b s = .next t) : t.Inv := by
  obtain ⟨-, hnext⟩ | ⟨hroom, hnext⟩ := execPushb_cases b s <;> cases hnext.symm.trans hexec
  · exact h.respond ..
  · have hfits := h.bq_fits
    refine (h.setBq ?_).respond ..
    rw [List.length_append, List.length_singleton]
    omega

theorem execPushw_inv (h : s.Inv) {unk : Bool} {idx : Index} (hexec : execPushw unk idx s = .next t) : t.Inv := by
  obtain ⟨-, hnext⟩ | ⟨hroom, hnext⟩ := execPushw_cases unk idx s <;> cases hnext.symm.trans hexec
  · exact h.respond ..
  · have hfits := h.wq_fits
    refine (h.setWq ?_).respond ..
    rw [List.length_append, List.length_singleton]
    omega

theorem execPopb_inv (h : s.Inv) (hexec : execPopb s = .next t) : t.Inv := by
  obtain ⟨-, hnext⟩ | ⟨v, rest, hbq, hnext⟩ := execPopb_cases s <;> cases hnext.symm.trans hexec
  · exact h.respond ..
  · have hfits := h.bq_fits
    rw [hbq] at hfits
    exact (h.setBq (Nat.le_of_succ_le hfits)).respond ..

theorem execPopw_inv (h : s.Inv) (hexec : execPopw s = .next t) : t.Inv := by
  obtain ⟨-, hnext⟩ | ⟨v, rest, hwq, hnext⟩ := execPopw_cases s <;> cases hnext.symm.trans hexec
  · exact h.respond ..
  · have hfits := h.wq_fits
    rw [hwq] at hfits
    exact (h.setWq (Nat.le_of_succ_le hfits)).respond ..

/-- The encoding of bytes that fit `BCAP` fits `WCAP` (R100). -/
theorem execEnc_inv (h : s.Inv) (hexec : execEnc s = .next t) : t.Inv := by
  cases hexec
  have hfits : ((encodeBytes s.bq).map knownEntry).length ≤ s.wcap := by
    rw [List.length_map]
    exact encodeBytes_length_le h.bq_fits
  exact (((h.setWq hfits).setBq (Nat.zero_le _)).setResults_zero .none rfl).respond ..

/-- The result for entries that fit `WCAP` fits `BCAP` (R121), and a failure reports a position in the queue. -/
theorem execDec_inv (h : s.Inv) (hexec : execDec s = .next t) : t.Inv := by
  obtain ⟨cand, r, hdec, hnext⟩ | ⟨kind, r, hdec, hnext⟩ := execDec_cases s <;> cases hnext.symm.trans hexec
  · have hfits : cand.length ≤ s.bcap := decodeWords_ok_length_le h.wq_fits hdec
    exact (((h.setWq (q := []) (Nat.zero_le _)).setBq hfits).setResults_zero .none (decodeWords_ok_epos hdec)).respond ..
  · obtain ⟨rfl, hlt⟩ | ⟨-, hzero⟩ := decodeWords_fail_epos hdec
    · exact (h.clearQueues.setResults (Nat.lt_of_lt_of_le hlt h.wq_fits) fun hne => absurd rfl hne).respond ..
    · exact (h.clearQueues.setResults_zero _ hzero).respond ..

theorem exec_inv (h : s.Inv) {i : Instr} (hexec : exec i s = .next t) : t.Inv := by
  cases i with
  | nop => cases hexec; exact h.respond ..
  | clr => cases hexec; exact h.clearBlock.respond ..
  | pushb => exact execPushb_inv h hexec
  | pushw => exact execPushw_inv h hexec
  | popb => exact execPopb_inv h hexec
  | popw => exact execPopw_inv h hexec
  | enc => exact execEnc_inv h hexec
  | dec => exact execDec_inv h hexec

theorem step_inv (h : s.Inv) (hstep : step s = .next t) : t.Inv := by
  obtain ⟨-, hs⟩ | ⟨rest, -, hs⟩ | ⟨w, rest, why, -, -, hs⟩ | ⟨w, rest, i, -, -, hs⟩ := step_cases s
  · cases hs.symm.trans hstep
    exact h
  · cases hs.symm.trans hstep
    exact (h.setCommands rest).clearBlock
  · cases hs.symm.trans hstep
    exact (h.setCommands rest).respond ..
  · exact exec_inv (h.setCommands rest) (hs.symm.trans hstep)

/-! ### Reachable states -/

theorem resetOf_inv {g : Nat} (hg : 1 ≤ g) : (State.resetOf g).Inv where
  gmax_pos := hg
  bq_fits := Nat.zero_le _
  wq_fits := Nat.zero_le _
  epos_lt := State.wcap_pos _
  epos_zero := fun _ => rfl

theorem reachable_inv (h : Reachable s) : s.Inv := by
  induction h with
  | start g inputs hg => exact (resetOf_inv hg).setCommands inputs
  | step _ hstep ih => exact step_inv ih hstep

theorem err_code_le (e : Err) : e.code.toNat ≤ 3 := by
  cases e <;> decide

/-- A `DEC` that leaves an error leaves both queues empty (R150). -/
theorem exec_dec_queues_of_err (hexec : exec .dec s = .next t) (herr : t.err ≠ .none) : t.bq = [] ∧ t.wq = [] := by
  obtain ⟨_, _, -, hnext⟩ | ⟨_, _, -, hnext⟩ := execDec_cases s <;> cases hnext.symm.trans hexec
  · exact absurd rfl herr
  · exact ⟨rfl, rfl⟩

end

/-! ### The statements -/

/-- Settles O53: empty queues fit, and the registers are 0. -/
theorem resetMeetsTheInvariants : Obligations.ResetMeetsTheInvariants :=
  ⟨resetOf_inv Config.one_le_gmax, fun _ => resetOf_inv⟩

/-- Settles O54: each shared operation keeps the invariants, a push because it checks for room, `ENC` and `DEC` because
their results fit. -/
theorem stepKeepsTheInvariants : Obligations.StepKeepsTheInvariants :=
  fun _ _ => step_inv

/-- Settles O55: the invariants hold at reset and every step keeps them; bytes, entries and codes are bounded by their
widths. -/
theorem reachableStatesMeetTheInvariants : Obligations.ReachableStatesMeetTheInvariants := by
  intro s h
  have hinv := reachable_inv h
  exact ⟨hinv.bq_fits, hinv.wq_fits, fun b _ => b.isLt, fun e _ => e.bits.isLt, err_code_le s.err, hinv.epos_lt,
    hinv.epos_zero, fun _ => exec_dec_queues_of_err⟩

end Sys2Proof.Machine

/-! ## Transactions (44_queue_and_control.md R139, R140, 20_memory.md R33) -/

namespace Sys2Proof.Machine

/-! ### Runs put together -/

theorem run_succ {s t : State} (h : step s = .next t) (n : Nat) : run (n + 1) s = run n t := by
  rw [run, h]

theorem run_add {m n : Nat} {s t : State} (h : run m s = .next t) : run (m + n) s = run n t := by
  induction m generalizing s with
  | zero =>
    cases h
    rw [Nat.zero_add]
  | succ m ih =>
    rw [Nat.add_right_comm]
    rcases hstep : step s with u | r | r
    · rw [run_succ hstep] at h ⊢
      exact ih h
    · rw [run, hstep] at h
      cases h
    · rw [run, hstep] at h
      cases h

/-- One presented command and then the rest of the run. -/
theorem run_command {i : Instr} {s t : State} {rest : List PortInput} {n : Nat}
    (h : exec i { s with commands := rest } = .next t) :
    run (n + 1) { s with commands := .command (encode i) :: rest } = run n t :=
  run_succ ((stepRunsTheDecodedCommand s (encode i) i rest (decode_encode i)).trans h) n

/-- A command for each element of a list, in order. `st done todo` is the state when the elements of `done` have been served
and those of `todo` have not. -/
theorem run_commands {α : Type} (i : α → Instr) (st : List α → List α → State) (rest : List PortInput) (xs : List α)
    (h : ∀ done x todo, done ++ x :: todo = xs → ∀ q, exec (i x) { st done (x :: todo) with commands := q } =
      .next { st (done ++ [x]) todo with commands := q }) :
    run xs.length { st [] xs with commands := xs.map (fun x => .command (encode (i x))) ++ rest } =
      .next { st xs [] with commands := rest } := by
  suffices hfrom : ∀ todo done, done ++ todo = xs →
      run todo.length { st done todo with commands := todo.map (fun x => .command (encode (i x))) ++ rest } =
        .next { st xs [] with commands := rest } from hfrom xs [] rfl
  intro todo
  induction todo with
  | nil =>
    intro done hdone
    rw [List.append_nil] at hdone
    rw [hdone]
    rfl
  | cons x todo ih =>
    intro done hdone
    rw [List.length_cons, List.map_cons, List.cons_append, run_command (h done x todo hdone _)]
    exact ih (done ++ [x]) (by rw [List.append_assoc, List.singleton_append, hdone])

/-! ### Pushing and popping in order -/

section
variable (s : State) (rest : List PortInput)

/-- Pushed bytes that fit stand in `BQ` in push order. -/
theorem run_pushb {b : List Byte} (hfits : s.bq.length + b.length ≤ 4 * s.gmax) :
    run b.length { s with commands := b.map (fun x => .command (encode (.pushb x))) ++ rest } =
      .next { s with bq := s.bq ++ b, commands := rest,
                     responses := s.responses ++ List.replicate b.length ⟨.ok, 0#12⟩ } := by
  have hrun := run_commands Instr.pushb
    (fun done _ => { s with bq := s.bq ++ done, responses := s.responses ++ List.replicate done.length ⟨.ok, 0#12⟩ })
    rest b fun done x todo hb q => ?_
  · simpa using hrun
  · have hroom : (s.bq ++ done).length ≠ 4 * s.gmax := by
      rw [← hb] at hfits
      simp only [List.length_append, List.length_cons] at hfits ⊢
      omega
    rw [exec_pushb_of_room hroom]
    simp [State.setBq, State.respond, List.replicate_succ']

/-- Pushed entries that fit stand in `WQ` in push order. -/
theorem run_pushw {w : List Entry} (hfits : s.wq.length + w.length ≤ 3 * s.gmax + 1) :
    run w.length { s with commands := w.map (fun e => .command (encode (.pushw e.unk e.idx))) ++ rest } =
      .next { s with wq := s.wq ++ w, commands := rest,
                     responses := s.responses ++ List.replicate w.length ⟨.ok, 0#12⟩ } := by
  have hrun := run_commands (fun e : Entry => .pushw e.unk e.idx)
    (fun done _ => { s with wq := s.wq ++ done, responses := s.responses ++ List.replicate done.length ⟨.ok, 0#12⟩ })
    rest w fun done x todo hw q => ?_
  · simpa using hrun
  · have hroom : (s.wq ++ done).length ≠ 3 * s.gmax + 1 := by
      rw [← hw] at hfits
      simp only [List.length_append, List.length_cons] at hfits ⊢
      omega
    rw [exec_pushw_of_room hroom]
    simp [State.setWq, State.respond, List.replicate_succ']

/-- Bytes are popped in the order in which they stand in `BQ`. -/
theorem run_popb {b left : List Byte} (hbq : s.bq = b ++ left) :
    run b.length { s with commands := List.replicate b.length (.command (encode .popb)) ++ rest } =
      .next { s with bq := left, commands := rest,
                     responses := s.responses ++ b.map (fun v => ⟨.ok, v.setWidth 12⟩) } := by
  have hrun := run_commands (fun _ : Byte => .popb)
    (fun done todo => { s with bq := todo ++ left, responses := s.responses ++ done.map (fun v => ⟨.ok, v.setWidth 12⟩) })
    rest b fun done x todo _ q => ?_
  · simpa [← hbq] using hrun
  · rw [exec_popb_of_cons rfl]
    simp [State.setBq, State.respond, popbData]

/-- Entries are popped in the order in which they stand in `WQ`. -/
theorem run_popw {w left : List Entry} (hwq : s.wq = w ++ left) :
    run w.length { s with commands := List.replicate w.length (.command (encode .popw)) ++ rest } =
      .next { s with wq := left, commands := rest,
                     responses := s.responses ++ w.map (fun e => ⟨.ok, BitVec.ofBool e.unk ++ e.idx⟩) } := by
  have hrun := run_commands (fun _ : Entry => .popw)
    (fun done todo => { s with wq := todo ++ left,
                               responses := s.responses ++ done.map (fun e => ⟨.ok, BitVec.ofBool e.unk ++ e.idx⟩) })
    rest w fun done x todo _ q => ?_
  · simpa [← hwq] using hrun
  · rw [exec_popw_of_cons rfl]
    simp [State.setWq, State.respond, popwData, Entry.bits]

end

/-! ### The two transactions -/

/-- The state of a transaction after `CLR` and the pushes: the queues hold what was pushed and every command so far has
answered `(OK, 0)`. -/
def State.loaded (s : State) (b : List Byte) (w : List Entry) : State :=
  { State.resetOf s.gmax with
    bq := b, wq := w, responses := s.responses ++ List.replicate (b.length + w.length + 1) ⟨.ok, 0#12⟩ }

section
variable (s : State) (rest : List PortInput)

/-- `CLR` takes any state to the loaded one without bytes and entries. -/
theorem run_clr (n : Nat) : run (n + 1) { s with commands := .command (encode .clr) :: rest } =
    run n { s.loaded [] [] with commands := rest } :=
  run_command rfl

theorem run_clr_pushb {b : List Byte} (hfits : b.length ≤ 4 * s.gmax) :
    run (b.length + 1)
      { s with commands := .command (encode .clr) :: (b.map (fun x => .command (encode (.pushb x))) ++ rest) } =
        .next { s.loaded b [] with commands := rest } := by
  have hpush := run_pushb (s.loaded [] []) rest (b := b) (by simpa [State.loaded, State.resetOf] using hfits)
  rw [run_clr, hpush]
  simp [State.loaded, List.replicate_succ, List.append_assoc]

theorem run_clr_pushw {w : List Entry} (hfits : w.length ≤ 3 * s.gmax + 1) :
    run (w.length + 1)
      { s with commands := .command (encode .clr) :: (w.map (fun e => .command (encode (.pushw e.unk e.idx))) ++ rest) } =
        .next { s.loaded [] w with commands := rest } := by
  have hpush := run_pushw (s.loaded [] []) rest (w := w) (by simpa [State.loaded, State.resetOf] using hfits)
  rw [run_clr, hpush]
  simp [State.loaded, List.replicate_succ, List.append_assoc]

end

/-- An index with the flag 0 above it is its zero extension to 12 bits (R13). -/
theorem zero_append_index (i : Index) : 0#1 ++ i = i.setWidth 12 := by
  apply BitVec.eq_of_toNat_eq
  rw [toNat_concat, BitVec.toNat_setWidth, BitVec.toNat_ofNat]
  omega

/-! ### The statements -/

/-- Settles O20: each push finds room, because all of the bytes fit. -/
theorem pushedBytesStandInOrder : Obligations.PushedBytesStandInOrder :=
  fun s _ rest => run_pushb s rest

/-- Settles O21: each pop takes the head. -/
theorem poppedEntriesComeInOrder : Obligations.PoppedEntriesComeInOrder :=
  fun s _ _ rest => run_popw s rest

/-- Settles O56: `CLR` and the pushes load the bytes, `ENC` puts their encoding into `WQ`, and the pops return it. -/
theorem encodeTransactionReturnsTheWords : Obligations.EncodeTransactionReturnsTheWords := by
  intro s b rest hfits
  have hlen : ((encodeBytes b).map knownEntry).length = 3 * ((b.length + 3) / 4) + 1 := by
    rw [List.length_map, encodeBytes_length]
  have hsteps : b.length + 3 * ((b.length + 3) / 4) + 3 =
      (b.length + 1) + (((encodeBytes b).map knownEntry).length + 1) := by
    rw [hlen]
    omega
  have hload := run_clr_pushb s (.command (encode .enc) ::
    (List.replicate ((encodeBytes b).map knownEntry).length (.command (encode .popw)) ++ rest)) hfits
  have hpop := run_popw { s.loaded b [] with
    wq := (encodeBytes b).map knownEntry, bq := [], err := .none, drop := dropCnt b.length, csf := csum b, csc := csum b,
    epos := 0, responses := (s.loaded b []).responses ++ [⟨.ok, 0#12⟩] } rest (List.append_nil _).symm
  rw [hsteps, ← hlen]
  refine ⟨_, (run_add hload).trans ((run_command (encReplacesWordQueueByTheEncoding.1 _)).trans hpop), ?_,
    rfl, rfl, rfl, rfl⟩
  simp [State.loaded, knownEntry, zero_append_index, List.replicate_succ', Function.comp_def]

/-- Settles O57: `CLR` and the pushes load the entries, and `DEC` either puts the bytes into `BQ`, from where the pops return
them, or takes the error. -/
theorem decodeTransactionReturnsTheBytes : Obligations.DecodeTransactionReturnsTheBytes := by
  refine fun s w rest hfits => ⟨fun cand r hdec => ?_, fun kind r hdec => ?_⟩
  · have hload := run_clr_pushw s (.command (encode .dec) ::
      (List.replicate cand.length (.command (encode .popb)) ++ rest)) hfits
    have hpop := run_popb { s.loaded [] w with
      wq := [], bq := cand, err := .none, drop := r.drop, csf := r.csf, csc := r.csc, epos := r.epos,
      responses := (s.loaded [] w).responses ++ [⟨.ok, 0#12⟩] } rest (List.append_nil cand).symm
    rw [show w.length + cand.length + 2 = (w.length + 1) + (cand.length + 1) by omega]
    refine ⟨_, (run_add hload).trans ((run_command (exec_dec_of_ok hdec)).trans hpop), ?_, rfl, rfl, rfl, rfl⟩
    simp [State.loaded, List.replicate_succ']
  · have hload := run_clr_pushw s (.command (encode .dec) :: rest) hfits
    refine ⟨_, (run_add (n := 1) hload).trans (run_command (n := 0) (exec_dec_of_fail hdec)), ?_,
      rfl, rfl, rfl, rfl, rfl, rfl, rfl, rfl⟩
    simp [State.loaded]

end Sys2Proof.Machine

/-! ## The assembler's own lines (30_encoding.md R56) -/

namespace Sys2Proof.Machine

/-- A line whose only check is `p` assembles exactly where `p` holds. -/
theorem assemble_eq_ite {line : AsmLine} {p : Prop} [Decidable p] {words : List CmdWord} (hwf : line.wf = decide p)
    (hwords : p → expand line = words) : assemble line = if p then some words else none := by
  rw [assemble, hwf]
  by_cases hp : p
  · rw [if_pos hp, if_pos (decide_eq_true hp), hwords hp]
  · rw [if_neg hp, if_neg (by simpa using hp)]

/-- Settles O59: an operand in range is the sum of R56 with the opcode's word, and one out of range is not well formed. -/
theorem assemblerLinesHaveTheirWords : Obligations.AssemblerLinesHaveTheirWords :=
  ⟨fun _ => assemble_eq_ite rfl fun h => congrArg (fun w => [w]) (asmPushb_eq h),
    fun _ => assemble_eq_ite rfl fun h => congrArg (fun w => [w]) (asmPushw_eq false h),
    fun _ => assemble_eq_ite rfl fun _ => rfl, rfl, rfl, rfl, rfl, rfl, rfl⟩

end Sys2Proof.Machine
